-- ==== Sys2Proof/Word.lean ====
section
/-! DEFINITION. The words the part's frames and records are made of (spec/00_scope.md 1.7). -/

namespace Sys2Proof

/-- One byte of a frame. -/
abbrev Byte := BitVec 8

/-- A 48-bit Ethernet address, first byte most significant (spec/01, 1.7). -/
abbrev Address := BitVec 48

/-- A 32-bit count of the Counter Bank, a cell sequence number, a piece number, a die tag. -/
abbrev Word32 := BitVec 32

/-- A set of heads, held as a 16-bit membership list (spec/00, 1.8). -/
abbrev HeadSet := BitVec 16

end Sys2Proof
end

