-- ==== Sys2Proof/Syntax.lean ====
section
/-! DEFINITION. The commands the part takes from outside: one constructor for each row of
spec/opcode_table.json, with the row's operands. A management row has no operand: its source, tag
and arguments are those of the request at the head of the management input queue (R171). -/

namespace Sys2Proof

/-- A frame as it arrives on a port: the bytes from the first byte of the destination address to the
last byte before the frame check sequence, and the frame check sequence (R1). -/
structure Frame where
  bytes : List Byte
  fcs : BitVec 32
  deriving DecidableEq, Repr

/-- The four event inputs (8.1), in the order of the configuration index of 11.4. -/
inductive EventLine
  | billet | pressRun | handover | saw
  deriving DecidableEq, Repr

/-- The commands, in the order of spec/opcode_table.json. A port is named 0–7, a section slot 0–15, a
strand 0–3; `WellFormed` checks these ranges. -/
inductive Instr
  | powerOnReset (straps : BitVec 3)
  | pinReset (straps : BitVec 3)
  | softReset
  | resetEnd
  | headFrameReceive (port : Nat) (frame : Frame)
  | noticeSendStart (port : Nat)
  | noticeSendEnd (port : Nat)
  | uplinkFrameReceive (frame : Frame)
  | uplinkSelect
  | uplinkSendEnd
  | encoderChange (a b : Bool)
  | tminExpiry
  | periodTimerExpiry
  | pulseStart (port : Nat)
  | pulseRelease (port : Nat)
  | fragmentTake
  | slotDeadlineExpiry (slot : Nat)
  | evaluationComplete
  | tmuTakeTemp
  | tempExpiry (strand : Nat)
  | stillnessExpiry
  | eventLineChange (line : EventLine) (level : Bool)
  | filterTimeExpiry (line : EventLine)
  | gateRelease (strand : Nat)
  | identify
  | getConfig
  | setGeometry
  | setHeadState
  | tableOpen
  | tableData
  | tableRead
  | selectDie
  | deactivate
  | flush
  | readCells
  | readPieces
  | read
  | readClear
  | clearScope
  | clearAll
  | freeze
  | unfreeze
  | clearAlarms
  | reset
  | writePortRole
  | writeForwardMode
  | writeDecimationFactor
  | writeReserve
  | writeWaterMark
  | writeMirrorSource
  | writeStationAddress
  | writeRecorderAddress
  | writeFrameTypeValue
  | writeReverseLimit
  | writeTriggerMode
  | writePitch
  | writeTmin
  | writeTp
  | writeSchedulingMode
  | writeBindingMode
  | writeFixedAddress
  | writeConfigItem
  | badCommand
  deriving DecidableEq, Repr

end Sys2Proof
end

