-- ==== Sys2Proof/Machine/Arith.lean ====
section
/-! DEFINITION. Rounding, clamping and saturation as spec/00 1.7 defines them, the byte order of frames,
and the frame check sequence of R1. -/

namespace Sys2Proof.Machine

/-- n / d rounded to the nearest integer, halves away from zero (1.7). -/
def roundedDiv (n : Int) (d : Nat) : Int :=
  if 0 ≤ n then (2 * n + d) / (2 * d) else -((2 * -n + d) / (2 * d))

/-- The least integer not below a / b (1.7). -/
def ceilDiv (a b : Nat) : Nat := (a + b - 1) / b

/-- x saturated at ±limit (1.7). -/
def saturate (limit x : Int) : Int := max (-limit) (min limit x)

/-- A written value clamped into lo–hi (1.7, R175). -/
def clamp (lo hi : Nat) (v : Int) : Nat := max lo (min hi v.toNat)

/-- A count that saturates at its largest value (1.7). -/
def satSucc (limit n : Nat) : Nat := min limit (n + 1)

/-- The low k bytes of v, most significant byte first (1.7, R173). -/
def beNat : Nat → Nat → List Byte
  | 0, _ => []
  | k + 1, v => BitVec.ofNat 8 (v / 256 ^ k) :: beNat k v

/-- v in two's complement in k bytes, most significant byte first (R173). -/
def beInt (k : Nat) (v : Int) : List Byte := beNat k (v % (256 ^ k : Nat)).toNat

/-- The number a field of bytes carries, most significant byte first (1.7). -/
def readNat (bs : List Byte) : Nat := bs.foldl (fun acc b => acc * 256 + b.toNat) 0

/-- The signed number a field of bytes carries in two's complement (1.7). -/
def readInt (bs : List Byte) : Int :=
  if 2 * readNat bs < 256 ^ bs.length then readNat bs else readNat bs - (256 ^ bs.length : Nat)

/-- The field of k bytes at the given offset. -/
def field (bs : List Byte) (offset k : Nat) : List Byte := (bs.drop offset).take k

/-- The unsigned number at the given offset, k bytes wide. -/
def natAt (bs : List Byte) (offset k : Nat) : Nat := readNat (field bs offset k)

/-- The signed number at the given offset, k bytes wide. -/
def intAt (bs : List Byte) (offset k : Nat) : Int := readInt (field bs offset k)

/-- Zero bytes added up to the given length. -/
def padTo (n : Nat) (bs : List Byte) : List Byte := bs ++ List.replicate (n - bs.length) 0

/-- One bit of the cyclic redundancy check, least significant bit first (generator 04C11DB7h, reflected). -/
def crcBit (c : BitVec 32) : BitVec 32 :=
  if c.getLsbD 0 then (c >>> 1) ^^^ 0xEDB88320#32 else c >>> 1

/-- One byte of the cyclic redundancy check. -/
def crcByte (c : BitVec 32) (b : Byte) : BitVec 32 :=
  crcBit (crcBit (crcBit (crcBit (crcBit (crcBit (crcBit (crcBit (c ^^^ b.setWidth 32))))))))

/-- The 32-bit cyclic redundancy check of Ethernet over the bytes (R1). PRESUMED (log 10): initial value
and final complement all ones, bits of a byte least significant first, as IEEE 802.3 has them. -/
def crc32 (bs : List Byte) : BitVec 32 := ~~~ bs.foldl crcByte 0xFFFFFFFF#32

end Sys2Proof.Machine
end

