-- ==== Sys2Proof/Config.lean ====
section
/-! DEFINITION. What the part fixes by construction (the numbers of spec/00 1.3, 1.4, 7.1, 10), and the
model's one free value. -/

namespace Sys2Proof

/-- Blocks in the frame buffer pool (1.4). -/
def Config.poolBlocks : Nat := 4096
/-- Bytes in a buffer block (1.4). -/
def Config.blockBytes : Nat := 128
/-- Greatest sum of the eight reserves (R12). -/
def Config.maxReserves : Nat := 1536
/-- Ring slots of one strand (R115). -/
def Config.ringSlots : Nat := 4096
/-- Capacity of egress queue A (10). -/
def Config.queueA : Nat := 16
/-- Capacity of egress queue B (10). -/
def Config.queueB : Nat := 32
/-- Capacity of egress queue C (10). -/
def Config.queueC : Nat := 64
/-- Capacity of the management input queue (R171). -/
def Config.inputQueue : Nat := 4
/-- Capacity of the void list (3.1). -/
def Config.voidList : Nat := 16
/-- Capacity of the pending mark list (8.5). -/
def Config.pendingMarks : Nat := 16
/-- Capacity of the blanking list (8.7). -/
def Config.blankingList : Nat := 4
/-- Closing pieces a strand can hold (9.1). -/
def Config.closingPieces : Nat := 4
/-- Entries of a strand's piece log (9.6). -/
def Config.pieceLog : Nat := 16
/-- Zones a piece can hold (9.1). -/
def Config.zones : Nat := 8
/-- Greatest station coordinate, 2^48 − 1 (R21). -/
def Config.maxStation : Nat := 281474976710655
/-- Width of a trigger pulse in µs (2.2). -/
def Config.pulseWidth : Nat := 10
/-- Limit of section coordinates, hot values and deviations in µm (1.7). -/
def Config.coordLimit : Int := 8388607
/-- The part code IDENTIFY returns (R178). -/
def Config.partCode : Nat := 2480
/-- The revision IDENTIFY returns (R178). -/
def Config.revision : Nat := 1
/-- The broadcast address (R17). -/
def Config.broadcast : Address := 0xFFFFFFFFFFFF#48
/-- The station address without its straps, 0A-4E-56-24-80-00 (R17). -/
def Config.stationBase : Address := 0x0A4E56248000#48
/-- The frame type value after power-on and pin reset, 9C61h (R17). -/
def Config.frameType : BitVec 16 := 0x9C61#16

/-- FREE VALUE (log 12): whether an age of that many µs that is no whole number of ms is given as the
next higher ms. R67 gives the age in ms and no rounding. -/
opaque Config.ageRoundsUp : Nat → Bool

end Sys2Proof
end

