-- ==== Sys2Proof/Machine/State.lean ====
section
/-! DEFINITION. Everything the spec gives the machine, block by block (spec/00 1.3), as plain data, and
the machine right after a power-on reset. Times are in µs on the part's internal time base (1.7). -/

namespace Sys2Proof.Machine

/-! ## Head Port Interface (spec/01 1.1) -/

/-- Role of a head port, in the order of 1.1. -/
inductive Role
  | head | pyro | off
  deriving DecidableEq, Repr

/-- Admission mode of a head port (R3): ANY, MATCH, STAMP. -/
inductive AdmissionMode
  | any | matchId | stamp
  deriving DecidableEq, Repr

/-- Non-scan disposition of a head port (R6). -/
inductive Disposition
  | drop | uplink
  deriving DecidableEq, Repr

/-- Forward mode of a head port (R8). -/
inductive ForwardMode
  | off | all | decimated
  deriving DecidableEq, Repr

/-- Hold state of a head port (R13). -/
inductive HoldState
  | flowing | holding
  deriving DecidableEq, Repr

/-- A flow-control notice (R13). -/
inductive Notice
  | hold | resume
  deriving DecidableEq, Repr

/-- A notice whose sending has begun: what it says and the HOLD frame on the wire (R13). -/
structure SentNotice where
  notice : Notice
  bytes : List Byte
  deriving DecidableEq, Repr

/-- The port record (1.1), and the notice the port's transmitter is sending (R13). -/
structure Port where
  role : Role
  admission : AdmissionMode
  defaultHead : Fin 16
  nonScan : Disposition
  forwardMode : ForwardMode
  /-- decimation factor N, 1–16 -/
  decimation : Nat
  /-- reserve, 0–255 blocks -/
  reserve : Nat
  /-- high water mark, 1–4095 -/
  high : Nat
  /-- low water mark, 0–4094 -/
  low : Nat
  /-- decimation counter, 0 to N − 1 -/
  counter : Nat
  hold : HoldState
  notice : Option Notice
  learned : Option Address
  transmitting : Option SentNotice
  deriving DecidableEq, Repr

/-- The port record of port p after power-on reset (R16). -/
def Port.default (p : Fin 16) : Port :=
  { role := .off, admission := .any, defaultHead := p, nonScan := .drop, forwardMode := .off,
    decimation := 4, reserve := 64, high := 160, low := 96, counter := 0, hold := .flowing,
    notice := none, learned := none, transmitting := none }

/-! ## Frame Buffer Pool and queue D (spec/01 1.3, 1.4) -/

/-- The position stamp of a FORWARD entry (R9). -/
structure Stamp where
  strand : Fin 4
  cell : Word32
  residue : Nat
  /-- the low 32 bits of M -/
  station : Word32
  mapValid : Bool
  inspecting : Bool
  headStamped : Bool
  deriving DecidableEq, Repr

/-- What a queue D entry is (1.3). -/
inductive DEntry
  | raw
  | forward (stamp : Stamp)
  deriving DecidableEq, Repr

/-- Queue D's hold on a frame (R11, R160): an entry leaves the queue when its sending begins, and queue D
lets go of the frame when the sending ends. -/
inductive DHold
  | none
  | queued (entry : DEntry)
  | sending (entry : DEntry)
  deriving DecidableEq, Repr

/-- An admitted frame that occupies blocks, with the holders that have not let go (R4, R5, R11). -/
structure HeldFrame where
  port : Fin 8
  /-- the frame as stored, under STAMP with the head id overwritten (R3) -/
  bytes : List Byte
  ptu : Bool
  tmu : Bool
  queueD : DHold
  deriving DecidableEq, Repr

/-- The pool (1.4): the held frames in order of admission. Use counts are computed from them. -/
structure Pool where
  held : List HeldFrame
  evictionLevel : Nat
  deriving DecidableEq, Repr

/-! ## Position Tracker (spec/02 2.1) -/

/-- Encoder sense (R20). -/
inductive Sense
  | normal | inverted
  deriving DecidableEq, Repr

/-- A level pair of ENC_A and ENC_B (R20). -/
structure Levels where
  a : Bool
  b : Bool
  deriving DecidableEq, Repr

/-- Settings and running state of the position tracker (2.1). -/
structure Position where
  sense : Sense
  /-- scale K, 1–1 048 575 -/
  scale : Nat
  /-- reverse limit, 1–65535 -/
  reverseLimit : Nat
  /-- accumulator S -/
  acc : Int
  /-- station coordinate M, 0 to 2^48 − 1 -/
  station : Nat
  /-- reverse latch: true is SET -/
  latch : Bool
  phase : Levels
  deriving DecidableEq, Repr

/-! ## Trigger Generator (spec/02 2.2) -/

/-- Trigger mode (R25). -/
inductive TriggerMode
  | off | pitch | time
  deriving DecidableEq, Repr

/-- A trigger output: its port's phase delay, its pulse schedule in ascending order, and while ASSERTED
its release time (R31, R32). -/
structure TrigOutput where
  phaseDelay : Nat
  schedule : List Nat
  release : Option Nat
  deriving DecidableEq, Repr

/-- Settings and running state of the trigger generator (2.2). -/
structure Trigger where
  mode : TriggerMode
  /-- pitch P, 1–65535 -/
  pitch : Nat
  /-- minimum spacing Tmin, 100–65535 µs -/
  tmin : Nat
  /-- period Tp, Tmin–1 000 000 µs -/
  period : Nat
  /-- scan sequence number of the last trigger fired -/
  seq : BitVec 16
  /-- last grid coordinate G -/
  grid : Nat
  last : Option Nat
  deferred : Bool
  /-- period timer: stopped, or its expiry -/
  timer : Option Nat
  outputs : Vector TrigOutput 8
  deriving DecidableEq, Repr

/-! ## Section Assembly Unit (spec/03) and head calibration (spec/04 4.1) -/

/-- Head state (R41). -/
inductive HeadState
  | off | listen | measure | fenced
  deriving DecidableEq, Repr

/-- The six calibration fields of a head (4.1). -/
structure Calibration where
  strand : Fin 4
  cosine : Int
  sine : Int
  x0 : Int
  y0 : Int
  minQuality : Nat
  deriving DecidableEq, Repr

/-- A head record (3.2, 4.1). -/
structure Head where
  state : HeadState
  missRun : Nat
  restoreRun : Nat
  cal : Calibration
  /-- written flag: true is SET -/
  written : Bool
  deriving DecidableEq, Repr

/-- A head record after power-on reset (R55, R58). The calibration contents, undefined by R58 and never
readable while the written flag is CLEAR, are zeros (log 11). -/
def Head.default : Head :=
  { state := .off, missRun := 0, restoreRun := 0,
    cal := { strand := 0, cosine := 0, sine := 0, x0 := 0, y0 := 0, minQuality := 0 },
    written := false }

/-- State of a section slot (R37). -/
inductive SlotState
  | free | collecting | closedWaiting | evaluating
  deriving DecidableEq, Repr

/-- Participation of a head in a slot: NONE, MEASURE, FENCED (3.1). -/
inductive Participation
  | out | measure | fenced
  deriving DecidableEq, Repr

/-- Contribution of a head to a slot: NONE, PARTIAL, COMPLETE, CORRUPT (3.1). -/
inductive Contribution
  | nothing | part | complete | corrupt
  deriving DecidableEq, Repr

/-- A slot's head entry (3.1). -/
structure HeadEntry where
  participation : Participation
  /-- fragment count seen, 1–4, or none -/
  count : Option Nat
  /-- fragments-received set -/
  received : BitVec 4
  contribution : Contribution
  released : Bool
  deriving DecidableEq, Repr

/-- The empty head entry of a head in the given participation (R38). -/
def HeadEntry.fresh (p : Participation) : HeadEntry :=
  { participation := p, count := none, received := 0, contribution := .nothing, released := false }

/-- A strand's temperature sample in a slot, its flags and the shrink value from it (R66). -/
structure TempSample where
  temp : Nat
  stale : Bool
  byDefault : Bool
  shrink : Nat
  deriving DecidableEq, Repr

/-- A window accumulator (3.1, R62). -/
structure Accumulator where
  count : Nat
  minX : Int
  maxX : Int
  minY : Int
  maxY : Int
  sumX : Int
  sumY : Int
  contributors : HeadSet
  tainted : Bool
  deriving DecidableEq, Repr

/-- An emptied window accumulator (R38). With count 0 the extremes hold no value (R62). -/
def Accumulator.empty : Accumulator :=
  { count := 0, minX := 0, maxX := 0, minY := 0, maxY := 0, sumX := 0, sumY := 0,
    contributors := 0, tainted := false }

/-- A section slot (3.1). -/
structure Slot where
  state : SlotState
  seq : BitVec 16
  station : Nat
  cell : Word32
  openTime : Nat
  deadline : Nat
  temps : Vector TempSample 4
  heads : Vector HeadEntry 16
  /-- per strand, one accumulator for each window of the die in service -/
  windows : Vector (List Accumulator) 4
  deriving DecidableEq, Repr

/-- A FREE slot with its record emptied (R55); the values of an emptied field are the model's (log 42). -/
def Slot.empty : Slot :=
  { state := .free, seq := 0, station := 0, cell := 0, openTime := 0, deadline := 0,
    temps := .replicate 4 { temp := 0, stale := false, byDefault := false, shrink := 0 },
    heads := .replicate 16 (HeadEntry.fresh .out),
    windows := .replicate 4 [] }

/-- Slots, void list and settings of the section assembly unit (3.1, R54). -/
structure Assembly where
  slots : Vector Slot 16
  /-- oldest first, at most 16 -/
  voidList : List (BitVec 16)
  timeout : Nat
  fenceLimit : Nat
  restoreCount : Nat
  deriving DecidableEq, Repr

/-! ## Temperature Unit (spec/04 4.4, 4.5) -/

/-- A strand's reading record (4.4). -/
inductive StrandTemp
  | none
  | fresh (temp taken expiry : Nat)
  | stale (temp taken : Nat)
  deriving DecidableEq, Repr

/-- A thermal curve: pending copy, in-use copy and written set (4.5). -/
structure Curve where
  pending : Vector Nat 33
  inUse : Vector Nat 33
  written : BitVec 33
  deriving DecidableEq, Repr

/-- A curve after power-on reset (R71). -/
def Curve.blank : Curve :=
  { pending := .replicate 33 0, inUse := .replicate 33 0, written := 0 }

/-- Reading records, hold time in ms and curves (4.4, 4.5). -/
structure Thermal where
  strands : Vector StrandTemp 4
  holdTime : Nat
  curves : Vector Curve 4
  deriving DecidableEq, Repr

/-! ## Die Library (spec/05) -/

/-- Service state of the part (5.4). -/
inductive Service
  | unconfigured | idle | inspecting
  deriving DecidableEq, Repr

/-- A consequence, a severity: SCRAP, HOLD, NOTE (5.2). -/
inductive Consequence
  | scrap | hold | note
  deriving DecidableEq, Repr

/-- The die entry (5.2). -/
structure DieEntry where
  tag : Word32
  /-- 16 characters -/
  name : Vector Byte 16
  strandCount : Nat
  curve : Fin 4
  defaultTemp : Nat
  blankLength : Nat
  scrapConfirm : Nat
  holdConfirm : Nat
  nodata : Consequence
  scrapLimit : Nat
  sampleCompare : BitVec 16
  sampleMask : BitVec 16
  deriving DecidableEq, Repr

/-- A strand descriptor (5.2). -/
structure StrandDesc where
  heads : HeadSet
  windowCount : Nat
  gaugeCount : Nat
  deriving DecidableEq, Repr

/-- A mark window (5.2): offsets relative to the material coordinate at the die. -/
structure MarkWindow where
  startOff : Int
  endOff : Int
  consequence : Consequence
  deriving DecidableEq, Repr

/-- A window of a strand (5.2). -/
structure Window where
  xLo : Int
  xHi : Int
  yLo : Int
  yHi : Int
  heads : HeadSet
  minCount : Nat
  deriving DecidableEq, Repr

/-- Kind of a gauge (R101). -/
inductive GaugeKind
  | span | spread
  deriving DecidableEq, Repr

/-- Axis of a gauge (R100). -/
inductive Axis
  | x | y
  deriving DecidableEq, Repr

/-- Pick (R100). -/
inductive Pick
  | min | max | mean
  deriving DecidableEq, Repr

/-- A gauge of a strand (5.2). -/
structure Gauge where
  enabled : Bool
  kind : GaugeKind
  axis : Axis
  windowA : Nat
  pickA : Pick
  windowB : Nat
  pickB : Pick
  nominal : Int
  rejLo : Int
  warnLo : Int
  warnHi : Int
  rejHi : Int
  severity : Consequence
  thermal : Bool
  deriving DecidableEq, Repr

/-- A die record (5.2). -/
structure DieRecord where
  entry : DieEntry
  strands : Vector StrandDesc 4
  weld : MarkWindow
  stop : MarkWindow
  start : MarkWindow
  windows : Vector (Vector Window 64) 4
  gauges : Vector (Vector Gauge 32) 4
  deriving DecidableEq, Repr

/-- The blank mark window, window and gauge of R75. -/
def MarkWindow.blank : MarkWindow := { startOff := 0, endOff := -1, consequence := .note }

@[inherit_doc MarkWindow.blank]
def Window.blank : Window := { xLo := 0, xHi := 0, yLo := 0, yHi := 0, heads := 0, minCount := 1 }

@[inherit_doc MarkWindow.blank]
def Gauge.blank : Gauge :=
  { enabled := false, kind := .span, axis := .x, windowA := 0, pickA := .min, windowB := 0,
    pickB := .min, nominal := 0, rejLo := 0, warnLo := 0, warnHi := 0, rejHi := 0,
    severity := .note, thermal := false }

/-- The blank record (R75). -/
def DieRecord.blank : DieRecord :=
  { entry :=
      { tag := 0, name := .replicate 16 0x20#8, strandCount := 0, curve := 0, defaultTemp := 0,
        blankLength := 0, scrapConfirm := 0, holdConfirm := 0, nodata := .hold, scrapLimit := 0,
        sampleCompare := 0, sampleMask := 0xFFFF#16 }
    strands := .replicate 4 { heads := 0, windowCount := 0, gaugeCount := 0 }
    weld := .blank, stop := .blank, start := .blank
    windows := .replicate 4 (.replicate 64 .blank)
    gauges := .replicate 4 (.replicate 32 .blank) }

/-- State of a die slot (R74), in the order of 5.1. -/
inductive DieState
  | empty | loading | ready | faulty | staged | inService
  deriving DecidableEq, Repr

/-- A die slot: its slot status (5.1) and its record. -/
structure DieSlot where
  state : DieState
  faultNumber : Option Nat
  faultStrand : Option Nat
  faultEntry : Option Nat
  record : DieRecord
  deriving DecidableEq, Repr

/-- A die slot after power-on reset (R93). Its record's contents, undefined by R93 and read as 0 while
EMPTY (R82), are the blank record (log 11). -/
def DieSlot.default : DieSlot :=
  { state := .empty, faultNumber := none, faultStrand := none, faultEntry := none,
    record := .blank }

/-- Service state and die slots (5.1, 5.4). -/
structure Library where
  service : Service
  slots : Vector DieSlot 8
  deriving DecidableEq, Repr

/-! ## Gauge Evaluator (spec/06 6.1) -/

/-- Evaluator queue, and the current slot with the result of its blanking test; GEV_IDLE is no current
slot (6.1, R95). -/
structure Evaluator where
  queue : List (Fin 16)
  current : Option (Fin 16 × Bool)
  deriving DecidableEq, Repr

/-! ## Length Map (spec/07) -/

/-- The geometry and the map origin M0 (7.1, R114). -/
structure Geometry where
  /-- cell length L, 20–5000 -/
  cellLength : Nat
  /-- die-to-station distance D_ds -/
  dieToStation : Nat
  /-- station-to-saw distance D_ss -/
  stationToSaw : Nat
  /-- map origin M0 -/
  origin : Int
  deriving DecidableEq, Repr

/-- State of a cell (R116). -/
inductive CellState
  | unseen | approach | live | closed
  deriving DecidableEq, Repr

/-- Verdict of a closed cell (R122). -/
inductive CellVerdict
  | good | warn | hold | scrap
  deriving DecidableEq, Repr

/-- A cell's mark set: per kind the consequence of its mark, if any (7.3). -/
structure MarkSet where
  weld : Option Consequence
  stop : Option Consequence
  start : Option Consequence
  proof : Option Consequence
  deriving DecidableEq, Repr

/-- The verdict group of a closed cell (7.3); reasons as the bits of 1.7. -/
structure CellResult where
  verdict : CellVerdict
  reasons : BitVec 9
  lead : Option Nat
  deriving DecidableEq, Repr

/-- A cell record (7.3). -/
structure Cell where
  number : Word32
  state : CellState
  unseen : Bool
  dieTag : Word32
  marks : MarkSet
  evaluated : Nat
  withData : Nat
  blanked : Nat
  partials : Nat
  warns : Nat
  tallies : Vector Nat 32
  /-- present only when CLOSED -/
  result : Option CellResult
  deriving DecidableEq, Repr

/-- A strand's ring of 4096 ring slots: the occupied slots with their cells, slot numbers rising; an
unlisted slot is empty (R115). -/
abbrev Ring := List (Nat × Cell)

/-- Geometry and rings (7.1, 7.2). -/
structure LengthMap where
  geometry : Option Geometry
  rings : Vector Ring 4
  deriving DecidableEq, Repr

/-! ## Event and Mark Unit (spec/08) -/

/-- A candidate level in a line's filter: its start and the filter time it is judged against (R132,
R145). The level is the one opposite to the filtered level. -/
structure Candidate where
  start : Nat
  time : Nat
  deriving DecidableEq, Repr

/-- A line's glitch filter (8.1). -/
structure LineFilter where
  time : Nat
  /-- filtered level: true is HIGH -/
  level : Bool
  candidate : Option Candidate
  deriving DecidableEq, Repr

/-- The stillness timer (8.2). -/
inductive Stillness
  | halted
  | running (expiry : Nat)
  | disarmed (stopCoordinate : Nat)
  deriving DecidableEq, Repr

/-- Kinds of mark that come from events (8.3). -/
inductive MarkKind
  | weld | stop | start
  deriving DecidableEq, Repr

/-- An entry of the pending mark list (8.5). -/
structure PendingMark where
  kind : MarkKind
  consequence : Consequence
  first : Word32
  last : Word32
  deriving DecidableEq, Repr

/-- A blanking window [start, stop) of station coordinates (8.7). -/
structure BlankWindow where
  start : Nat
  stop : Nat
  deriving DecidableEq, Repr

/-- Settings and running state of the event and mark unit (spec/08). -/
structure Events where
  /-- in the order BILLET, PRESS_RUN, HANDOVER, SAW -/
  lines : Vector LineFilter 4
  stillTime : Nat
  stillness : Stillness
  pending : List PendingMark
  blanking : List BlankWindow
  proofEnable : Bool
  proofCompare : Word32
  proofMask : Word32
  proofStrands : BitVec 4
  deriving DecidableEq, Repr

/-! ## Piece Unit (spec/09) -/

/-- Class of a zone (9.1). -/
inductive ZoneClass
  | hold | scrap
  deriving DecidableEq, Repr

/-- A zone of a piece (9.1). -/
structure Zone where
  offset : Nat
  length : Nat
  cls : ZoneClass
  reasons : BitVec 9
  lead : Option Nat
  deriving DecidableEq, Repr

/-- A piece record (9.1); the cut cell of a closing piece stands in `ClosingPiece`. -/
structure Piece where
  first : Word32
  cells : Nat
  good : Nat
  warn : Nat
  hold : Nat
  scrap : Nat
  reasons : BitVec 9
  zones : List Zone
  overflow : Bool
  deriving DecidableEq, Repr

/-- A closing piece and its cut cell (9.1). -/
structure ClosingPiece where
  piece : Piece
  cut : Word32
  deriving DecidableEq, Repr

/-- Verdict of a completed piece (R153, R154). -/
inductive PieceVerdict
  | accept | trim | hold | scrap | aborted
  deriving DecidableEq, Repr

/-- A completed piece (9.6). -/
structure CompletedPiece where
  strand : Fin 4
  verdict : PieceVerdict
  number : Word32
  piece : Piece
  deriving DecidableEq, Repr

/-- A piece log entry and its report state: SENT or UNSENT (9.6). -/
structure LogEntry where
  completed : CompletedPiece
  sent : Bool
  deriving DecidableEq, Repr

/-- A strand's pieces and scrap gate (9.1, 9.7): the gate's release time while ASSERTED. -/
structure StrandPieces where
  openPiece : Option Piece
  closing : List ClosingPiece
  next : Word32
  gate : Option Nat
  deriving DecidableEq, Repr

/-- The piece unit (spec/09). The log is one list in order of completion across the strands (9.6). -/
structure Pieces where
  strands : Vector StrandPieces 4
  log : List LogEntry
  holdTime : Nat
  deriving DecidableEq, Repr

/-! ## Egress Scheduler and Uplink Port (spec/10, spec/01 1.5) -/

/-- Status of a response (R172). -/
inductive Status
  | ok | badFormat | badCommand | badValue | range | state | inUse | notBound
  deriving DecidableEq, Repr

/-- Event kinds (8.1, R134). -/
inductive EventKind
  | weld | stop | start | pressRunFalling | handover | saw
  deriving DecidableEq, Repr

/-- An event record (R134). -/
structure EventRecord where
  kind : EventKind
  station : Nat
  stationCell : Word32
  dieCell : Word32
  sawCell : Word32
  deriving DecidableEq, Repr

/-- Bands (R103, R104). -/
inductive Band
  | good | warn | reject | nodata
  deriving DecidableEq, Repr

/-- A gauge result (R99). -/
structure GaugeResult where
  gauge : Nat
  band : Band
  deviation : Int
  short : Bool
  deriving DecidableEq, Repr

/-- A section record (R109). -/
structure SectionRecord where
  seq : BitVec 16
  strand : Fin 4
  stale : Bool
  byDefault : Bool
  cell : Word32
  temp : Nat
  shrink : Nat
  entries : List GaugeResult
  deriving DecidableEq, Repr

/-- Alarm kinds, in the order of R169. -/
inductive AlarmKind
  | headFenced | headRestored | runoutReverse | tempStale | markMerged | sawOverrun
  | pieceBacklog | pieceLost | dieChanged
  deriving DecidableEq, Repr

/-- An alarm report's content (R168). -/
structure AlarmReport where
  kind : AlarmKind
  subject : Nat
  raised : BitVec 9
  deriving DecidableEq, Repr

/-- What a frame the part makes says (1.7, R160). -/
inductive Content
  | response (tag : BitVec 16) (command : Byte) (status : Status) (data : List Byte)
  | alarm (report : AlarmReport)
  | piece (entry : CompletedPiece)
  | event (record : EventRecord)
  | sectionRecord (record : SectionRecord)
  deriving DecidableEq, Repr

/-- A frame of queue A, B or C, complete when it joined (10): the frame type value and station address
then held; a response's destination. A report's destination is fixed when its sending begins (R167). -/
structure OutFrame where
  frameType : BitVec 16
  source : Address
  dest : Option Address
  content : Content
  deriving DecidableEq, Repr

/-- The four egress queues (spec/10). -/
inductive QueueId
  | a | b | c | d
  deriving DecidableEq, Repr

/-- The frame on the uplink: the queue it came from and its bytes, before the frame check sequence. -/
structure Sending where
  queue : QueueId
  bytes : List Byte
  deriving DecidableEq, Repr

/-- Settings of the uplink port, the sampled straps, and the frame being sent (1.5, R19, R178). -/
structure Uplink where
  station : Address
  recorder : Address
  report : Address
  frameType : BitVec 16
  straps : BitVec 3
  sending : Option Sending
  deriving DecidableEq, Repr

/-- Scheduling mode (R165). -/
inductive SchedMode
  | strict | quota
  deriving DecidableEq, Repr

/-- Queues A, B and C, queue A's reserved place, and the scheduling state (10.1, 10.3). -/
structure Egress where
  a : List OutFrame
  b : List OutFrame
  c : List OutFrame
  reserved : Bool
  mode : SchedMode
  quotas : Vector Nat 4
  turn : QueueId
  turnCount : Nat
  deriving DecidableEq, Repr

/-! ## Management Agent (spec/11) -/

/-- Binding mode (R170), in the order of chapter 11. -/
inductive BindingMode
  | openMode | first | fixed
  deriving DecidableEq, Repr

/-- A request in the management input queue, with its source address (R171). -/
structure Request where
  source : Address
  tag : BitVec 16
  command : Byte
  args : List Byte
  deriving DecidableEq, Repr

/-- A part of a die record (5.2). -/
inductive DiePart
  | header
  | marks
  | windows (strand : Fin 4)
  | gauges (strand : Fin 4)
  deriving DecidableEq, Repr

/-- A table of the table window (5.3). -/
inductive Target
  | heads
  | curve (n : Fin 4)
  | die (slot : Fin 8) (part : DiePart)
  deriving DecidableEq, Repr

/-- The table window (5.3): open while its target is not none. -/
structure TableWindow where
  target : Option Target
  /-- the number of the next entry to be written -/
  pointer : Nat
  /-- the last entry number that may be written -/
  last : Nat
  overrun : Nat
  deriving DecidableEq, Repr

/-- The table window after any reset (R83). -/
def TableWindow.cleared : TableWindow := { target := none, pointer := 0, last := 0, overrun := 0 }

/-- Where a RESET stands (R179): none taken; its response not yet fully sent; the soft reset due. -/
inductive ResetPhase
  | none | waiting | due
  deriving DecidableEq, Repr

/-- Binding, input queue, table window, alarm flags (spec/11) and a RESET that waits (R179). -/
structure Management where
  mode : BindingMode
  fixed : Address
  bound : Option Address
  input : List Request
  window : TableWindow
  /-- the nine raised flags, kind k at bit k − 1 (11.4 item 70) -/
  alarms : BitVec 9
  reset : ResetPhase
  deriving DecidableEq, Repr

/-! ## Counter Bank (spec/12) -/

/-- A head filter (12.2). -/
structure HeadFilter where
  enabled : Bool
  head : Fin 16
  deriving DecidableEq, Repr

/-- The counters by scope and position (12.1), the freeze flag (true is FROZEN) and the head filters. -/
structure Counters where
  ports : Vector (Vector Word32 11) 9
  heads : Vector (Vector Word32 7) 16
  strands : Vector (Vector Word32 14) 4
  global : Vector Word32 18
  frozen : Bool
  filters : Vector HeadFilter 2
  deriving DecidableEq, Repr

/-- Every counter 0 and the freeze flag RUNNING (R185), with the given head filters. -/
def Counters.cleared (filters : Vector HeadFilter 2) : Counters :=
  { ports := .replicate 9 (.replicate 11 0), heads := .replicate 16 (.replicate 7 0),
    strands := .replicate 4 (.replicate 14 0), global := .replicate 18 0,
    frozen := false, filters := filters }

/-! ## The machine -/

/-- The levels at the discrete input pins (1.5). -/
structure Pins where
  enc : Levels
  billet : Bool
  pressRun : Bool
  handover : Bool
  saw : Bool
  deriving DecidableEq, Repr

/-- The whole machine. -/
structure State where
  now : Nat
  inReset : Bool
  pins : Pins
  ports : Vector Port 8
  mirror : Option (Fin 8)
  pool : Pool
  upl : Uplink
  pos : Position
  trg : Trigger
  heads : Vector Head 16
  sau : Assembly
  tmu : Thermal
  dlb : Library
  gev : Evaluator
  lmp : LengthMap
  emu : Events
  pcu : Pieces
  egs : Egress
  mga : Management
  ctb : Counters
  pending : List Instr
  deriving DecidableEq, Repr

/-- Why the machine stops. -/
inductive Fault
  /-- Raised by a command that names a head port above 7, a section slot above 15 or a strand above 3: the
  part has no such instance, so no event of it can come about (log 4). Safe. -/
  | noSuchInstance
  deriving DecidableEq, Repr

/-- Why a command has no meaning. -/
inductive Refusal
  /-- Raised by exec for a command that has no meaning yet; none is left. Safe. -/
  | notModelled (mnemonic : String)
  deriving DecidableEq, Repr

/-- The state a power-on reset with the given straps gives every block (R16, R17, R24, R35, R55, R58,
R67, R71, R93, R111, R131, R146, R159, R166, R180, R185), the reset having ended, with the inputs at the
given levels and the given present time. -/
def State.powerOn (straps : BitVec 3) (pins : Pins) (now : Nat) : State :=
  { now := now
    inReset := false
    pins := pins
    ports := #v[.default 0, .default 1, .default 2, .default 3, .default 4, .default 5, .default 6,
      .default 7]
    mirror := none
    pool := { held := [], evictionLevel := 256 }
    upl :=
      { station := Config.stationBase + straps.setWidth 48, recorder := Config.broadcast,
        report := Config.broadcast, frameType := Config.frameType, straps := straps,
        sending := none }
    pos :=
      { sense := .normal, scale := 6554, reverseLimit := 500, acc := 0, station := 0, latch := false,
        phase := pins.enc }
    trg :=
      { mode := .off, pitch := 20, tmin := 250, period := 1000, seq := 0, grid := 0, last := none,
        deferred := false, timer := none,
        outputs := .replicate 8 { phaseDelay := 0, schedule := [], release := none } }
    heads := .replicate 16 .default
    sau :=
      { slots := .replicate 16 .empty, voidList := [], timeout := 2000, fenceLimit := 8,
        restoreCount := 32 }
    tmu := { strands := .replicate 4 .none, holdTime := 500, curves := .replicate 4 .blank }
    dlb := { service := .unconfigured, slots := .replicate 8 .default }
    gev := { queue := [], current := none }
    lmp := { geometry := none, rings := .replicate 4 [] }
    emu :=
      { lines := #v[{ time := 50, level := pins.billet, candidate := none },
          { time := 50, level := pins.pressRun, candidate := none },
          { time := 50, level := pins.handover, candidate := none },
          { time := 50, level := pins.saw, candidate := none }]
        stillTime := 1500, stillness := .halted, pending := [], blanking := [],
        proofEnable := false, proofCompare := 0, proofMask := 0, proofStrands := 0xF#4 }
    pcu :=
      { strands := .replicate 4 { openPiece := none, closing := [], next := 1, gate := none },
        log := [], holdTime := 2000 }
    egs :=
      { a := [], b := [], c := [], reserved := false, mode := .quota, quotas := #v[6, 4, 2, 1],
        turn := .a, turnCount := 0 }
    mga :=
      { mode := .openMode, fixed := 0, bound := none, input := [], window := .cleared, alarms := 0,
        reset := .none }
    ctb := .cleared (.replicate 2 { enabled := false, head := 0 })
    pending := [] }

/-- The machine right after reset: the power-on reset has ended, the straps read 0 and every input is low
(log 8, log 9). -/
def State.reset : State :=
  .powerOn 0 { enc := ⟨false, false⟩, billet := false, pressRun := false, handover := false, saw := false } 0

end Sys2Proof.Machine
end

