-- ==== Sys2Proof/Machine/Ops.lean ====
section
/-! DEFINITION. The named operations over the machine's stores: vectors, block counts, the serving die,
cell numbers, rings. -/

namespace Sys2Proof.Machine

/-! ## Vectors and instances -/

/-- A vector with the entry at i changed by f. -/
def upd {α : Type} {n : Nat} (v : Vector α n) (i : Fin n) (f : α → α) : Vector α n :=
  v.set i (f v[i])

/-- A vector with every entry changed by f. -/
def updAll {α : Type} {n : Nat} (v : Vector α n) (f : α → α) : Vector α n :=
  Vector.ofFn fun i => f v[i]

/-- The effect f of a command that names instance i of n; the fault of log 4 when there is none. -/
def withIndex {n : Nat} (i : Nat) (s : State) (f : Fin n → State → State) :
    Host.Outcome State Fault Refusal :=
  if h : i < n then .next (f ⟨i, h⟩ s) else .fault .noSuchInstance

/-- Port p's record changed. -/
def State.modPort (p : Fin 8) (f : Port → Port) (s : State) : State :=
  { s with ports := upd s.ports p f }

/-- Head h's record changed. -/
def State.modHead (h : Fin 16) (f : Head → Head) (s : State) : State :=
  { s with heads := upd s.heads h f }

/-- Section slot i changed. -/
def State.modSlot (i : Fin 16) (f : Slot → Slot) (s : State) : State :=
  { s with sau := { s.sau with slots := upd s.sau.slots i f } }

/-- Port p's trigger output changed. -/
def State.modOutput (p : Fin 8) (f : TrigOutput → TrigOutput) (s : State) : State :=
  { s with trg := { s.trg with outputs := upd s.trg.outputs p f } }

/-- Strand t's ring changed. -/
def State.modRing (t : Fin 4) (f : Ring → Ring) (s : State) : State :=
  { s with lmp := { s.lmp with rings := upd s.lmp.rings t f } }

/-- Strand t's pieces and gate changed. -/
def State.modPieces (t : Fin 4) (f : StrandPieces → StrandPieces) (s : State) : State :=
  { s with pcu := { s.pcu with strands := upd s.pcu.strands t f } }

/-- Die slot k changed. -/
def State.modDie (k : Fin 8) (f : DieSlot → DieSlot) (s : State) : State :=
  { s with dlb := { s.dlb with slots := upd s.dlb.slots k f } }

/-- The scan records waiting in the evaluator's queue, and the one in evaluation, replaced. -/
def setEvaluator (e : Evaluator) (s : State) : State := { s with gev := e }

/-- The pending mark list replaced. -/
def setMarks (l : List PendingMark) (s : State) : State := { s with emu := { s.emu with pending := l } }

/-- The piece log replaced. -/
def setLog (l : List LogEntry) (s : State) : State := { s with pcu := { s.pcu with log := l } }

/-- The input pins replaced. -/
def setPins (p : Pins) (s : State) : State := { s with pins := p }

/-- The decoder phase replaced. -/
def setPhase (l : Levels) (s : State) : State := { s with pos := { s.pos with phase := l } }

/-- A change folded over a list of instances, first to last. -/
def forEach {α : Type} (l : List α) (f : α → State → State) (s : State) : State :=
  l.foldl (fun s a => f a s) s

/-! ## Buffer blocks (1.4, R10) -/

/-- The blocks a frame occupies, ceil(frame length / 128) (R10). -/
def HeldFrame.blocks (f : HeldFrame) : Nat := ceilDiv f.bytes.length Config.blockBytes

/-- A holder has not yet let the frame go (R11). -/
def HeldFrame.isHeld (f : HeldFrame) : Bool := f.ptu || f.tmu || f.queueD != .none

/-- The frame has an entry in queue D (1.3). -/
def HeldFrame.inQueueD (f : HeldFrame) : Bool :=
  match f.queueD with
  | .queued _ => true
  | _ => false

/-- The frame's queue D entry is being sent (R160). -/
def HeldFrame.onWire (f : HeldFrame) : Bool :=
  match f.queueD with
  | .sending _ => true
  | _ => false

/-- Port p's use count u: the blocks held by frames it admitted (1.4). -/
def useCount (held : List HeldFrame) (p : Fin 8) : Nat :=
  ((held.filter (·.port = p)).map HeldFrame.blocks).sum

/-- The blocks port p draws from the shared pool, max(0, u − r) (R10). -/
def sharedDraw (s : State) (p : Fin 8) : Nat := useCount s.pool.held p - (s.ports[p]).reserve

/-- The sum of the eight reserves. -/
def reserveSum (s : State) : Nat := ((List.finRange 8).map fun p => (s.ports[p]).reserve).sum

/-- The shared use (R10). -/
def sharedUse (s : State) : Nat := ((List.finRange 8).map (sharedDraw s)).sum

/-- The shared capacity (R10). -/
def sharedCapacity (s : State) : Nat := Config.poolBlocks - reserveSum s

/-- The free shared blocks (R10). -/
def freeShared (s : State) : Nat := sharedCapacity s - sharedUse s

/-! ## The serving die (5.4, R76) -/

/-- The slot that is IN_SERVICE, if any. -/
def servingSlot (s : State) : Option (Fin 8) :=
  (List.finRange 8).find? fun k => (s.dlb.slots[k]).state = .inService

/-- The slot that is STAGED, if any. -/
def stagedSlot (s : State) : Option (Fin 8) :=
  (List.finRange 8).find? fun k => (s.dlb.slots[k]).state = .staged

/-- The record of the IN_SERVICE slot (R76); the blank record where no slot serves, which no reader uses
while the service state is INSPECTING. -/
def servingDie (s : State) : DieRecord :=
  match servingSlot s with
  | some k => (s.dlb.slots[k]).record
  | none => .blank

/-- The strands below the strand count of the die in service, ascending: the rings in use (R115). -/
def usedStrands (s : State) : List (Fin 4) :=
  match servingSlot s with
  | some k => (List.finRange 4).filter (·.val < (s.dlb.slots[k]).record.entry.strandCount)
  | none => []

/-- The service state is INSPECTING. -/
def inspecting (s : State) : Bool := s.dlb.service = .inspecting

/-! ## Coordinates and cell numbers (7.1, R114) -/

/-- Approach A = ceil(D_ds / L), at least 1 (7.1). -/
def approachCells (cellLength dieToStation : Nat) : Nat := max 1 (ceilDiv dieToStation cellLength)

/-- Live V = ceil(D_ss / L) + 1, at least 2 (7.1). -/
def liveCells (cellLength stationToSaw : Nat) : Nat := max 2 (ceilDiv stationToSaw cellLength + 1)

/-- History H = 4096 − A − V (7.1); negative when the ring falls short. -/
def historyCells (cellLength dieToStation stationToSaw : Nat) : Int :=
  (Config.ringSlots : Int) - approachCells cellLength dieToStation - liveCells cellLength stationToSaw

/-- The material coordinate of station coordinate m, m − M0 (7.2). -/
def Geometry.material (g : Geometry) (station : Nat) : Int := station - g.origin

/-- The cell a material coordinate lies in, floor(c / L) (R114), before it is taken modulo 2^32. -/
def Geometry.cellAt (g : Geometry) (c : Int) : Int := c / g.cellLength

/-- The die cell at station coordinate m (R114). -/
def Geometry.dieCell (g : Geometry) (station : Nat) : Int :=
  g.cellAt (g.material station + g.dieToStation)

/-- The station cell at station coordinate m (R114). -/
def Geometry.stationCell (g : Geometry) (station : Nat) : Int := g.cellAt (g.material station)

/-- The saw cell at station coordinate m (R114). -/
def Geometry.sawCell (g : Geometry) (station : Nat) : Int :=
  g.cellAt (g.material station - g.stationToSaw)

/-- A cell number as it is held, modulo 2^32 (R114). -/
def seqOf (n : Int) : Word32 := BitVec.ofInt 32 n

/-- The ring slot of a cell, n mod 4096 (R115). -/
def slotOf (n : Word32) : Nat := n.toNat % Config.ringSlots

/-- a is at or below b, judged on their difference modulo 2^32 as a signed number (R138). -/
def cellLe (a b : Word32) : Bool := decide (0 ≤ (b - a).toInt)

/-- The lesser of two cell numbers (R138, R141). -/
def cellMin (a b : Word32) : Word32 := if cellLe a b then a else b

/-- The greater of two cell numbers (R138, R141). -/
def cellMax (a b : Word32) : Word32 := if cellLe a b then b else a

/-- The station cell as captured by slots, stamps and records (R9, R38); 0 without a geometry. -/
def stationCellOf (s : State) (station : Nat) : Word32 :=
  match s.lmp.geometry with
  | some g => seqOf (g.stationCell station)
  | none => 0

/-! ## Rings (R115) -/

/-- The canonical form of a ring: slots strictly rising, below 4096, and each listed cell in its own slot. -/
def Ring.wf (r : Ring) : Bool :=
  decide (r.Pairwise (fun x y => x.1 < y.1)) &&
    r.all (fun e => decide (e.1 < Config.ringSlots) && e.1 == slotOf e.2.number)

/-- What a ring slot holds. -/
def Ring.at (r : Ring) (slot : Nat) : Option Cell := (r.find? (·.1 = slot)).map (·.2)

/-- The cell record of cell n, when n's ring slot holds it. -/
def Ring.cell (r : Ring) (n : Word32) : Option Cell :=
  (r.at (slotOf n)).filter (·.number = n)

/-- A ring with slot k set to a cell. -/
def Ring.put (k : Nat) (c : Cell) : Ring → Ring
  | [] => [(k, c)]
  | (j, d) :: r =>
    if k < j then (k, c) :: (j, d) :: r
    else if k = j then (k, c) :: r
    else (j, d) :: Ring.put k c r

/-- A ring with every cell that p selects changed by f; f must keep the cell's number. -/
def Ring.onCells (p : Cell → Bool) (f : Cell → Cell) (r : Ring) : Ring :=
  r.map fun e => if p e.2 then (e.1, { f e.2 with number := e.2.number }) else e

/-- A ring with cell n changed by f, where n's ring slot holds cell n. -/
def Ring.onCell (n : Word32) (f : Cell → Cell) (r : Ring) : Ring := r.onCells (·.number = n) f

/-- A cell made with empty marks and counts (R119, R125). -/
def Cell.made (n : Word32) (state : CellState) (unseen : Bool) (dieTag : Word32) : Cell :=
  { number := n, state := state, unseen := unseen, dieTag := dieTag,
    marks := { weld := none, stop := none, start := none, proof := none },
    evaluated := 0, withData := 0, blanked := 0, partials := 0, warns := 0,
    tallies := .replicate 32 0, result := none }

/-- The ring a flush makes (R125): cells 0 to d, UNSEEN with the unseen flag, every other slot empty. -/
def Ring.flushed (dieCell : Int) (dieTag : Word32) : Ring :=
  (List.range (min (dieCell + 1).toNat Config.ringSlots)).map fun n =>
    (n, Cell.made (BitVec.ofNat 32 n) .unseen true dieTag)

end Sys2Proof.Machine
end

