-- ==== Sys2Proof/Machine/Flags.lean ====
section
/-! DEFINITION. The counters (spec/12), the alarm flags (10.5) and the joining of queue A by alarm reports
(R161). -/

namespace Sys2Proof.Machine

/-! ## Counters (12.1, R181, R183) -/

/-- Port-scope counters, by position (12.1). -/
inductive PortCounter
  | received | admitted | admitMismatch | headOff | noBuffer | holdSent | resumeSent | forwarded
  | evicted | nonScanDropped | tempInvalid
  deriving DecidableEq, Repr

/-- Head-scope counters, by position (12.1). -/
inductive HeadCounter
  | accepted | late | stray | duplicate | corrupt | misses | fencings
  deriving DecidableEq, Repr

/-- Strand-scope counters, by position (12.1). -/
inductive StrandCounter
  | evaluated | blanked | beyondSaw | cellsGood | cellsWarn | cellsHold | cellsScrap
  | piecesAccept | piecesTrim | piecesHold | piecesScrap | piecesAborted | markTruncated | pieceLost
  deriving DecidableEq, Repr

/-- Global counters, by position (12.1). -/
inductive GlobalCounter
  | triggers | triggerOverrun | skipped | earlyClose | evWeld | evStop | evStart | evPressRunFalling
  | evHandover | evSaw | markMerged | sawOverrun | mgmtDropped | alarmDropped | eventRecordsDropped
  | sectionRecordsDropped | filtered0 | filtered1
  deriving DecidableEq, Repr

/-- Position of a port-scope counter. -/
def PortCounter.pos : PortCounter → Fin 11
  | .received => 0 | .admitted => 1 | .admitMismatch => 2 | .headOff => 3 | .noBuffer => 4
  | .holdSent => 5 | .resumeSent => 6 | .forwarded => 7 | .evicted => 8 | .nonScanDropped => 9
  | .tempInvalid => 10

/-- Position of a head-scope counter. -/
def HeadCounter.pos : HeadCounter → Fin 7
  | .accepted => 0 | .late => 1 | .stray => 2 | .duplicate => 3 | .corrupt => 4 | .misses => 5
  | .fencings => 6

/-- Position of a strand-scope counter. -/
def StrandCounter.pos : StrandCounter → Fin 14
  | .evaluated => 0 | .blanked => 1 | .beyondSaw => 2 | .cellsGood => 3 | .cellsWarn => 4
  | .cellsHold => 5 | .cellsScrap => 6 | .piecesAccept => 7 | .piecesTrim => 8 | .piecesHold => 9
  | .piecesScrap => 10 | .piecesAborted => 11 | .markTruncated => 12 | .pieceLost => 13

/-- Position of a global counter. -/
def GlobalCounter.pos : GlobalCounter → Fin 18
  | .triggers => 0 | .triggerOverrun => 1 | .skipped => 2 | .earlyClose => 3 | .evWeld => 4
  | .evStop => 5 | .evStart => 6 | .evPressRunFalling => 7 | .evHandover => 8 | .evSaw => 9
  | .markMerged => 10 | .sawOverrun => 11 | .mgmtDropped => 12 | .alarmDropped => 13
  | .eventRecordsDropped => 14 | .sectionRecordsDropped => 15 | .filtered0 => 16 | .filtered1 => 17

/-- A change of the counters, lost while the freeze flag is FROZEN (R183). -/
def count (f : Counters → Counters) (s : State) : State :=
  if s.ctb.frozen then s else { s with ctb := f s.ctb }

/-- A port-scope counter increases by 1, wrapping (R181); instance 8 is the uplink. -/
def countPort (i : Fin 9) (c : PortCounter) : State → State :=
  count fun b => { b with ports := upd b.ports i fun v => upd v c.pos (· + 1) }

/-- A head-scope counter increases by 1. -/
def countHead (h : Fin 16) (c : HeadCounter) : State → State :=
  count fun b => { b with heads := upd b.heads h fun v => upd v c.pos (· + 1) }

/-- A strand-scope counter increases by 1. -/
def countStrand (t : Fin 4) (c : StrandCounter) : State → State :=
  count fun b => { b with strands := upd b.strands t fun v => upd v c.pos (· + 1) }

/-- A global counter increases by n, modulo 2^32 (R181). -/
def countGlobalBy (c : GlobalCounter) (n : Nat) : State → State :=
  count fun b => { b with global := upd b.global c.pos (· + BitVec.ofNat 32 n) }

/-- A global counter increases by 1. -/
def countGlobal (c : GlobalCounter) : State → State := countGlobalBy c 1

/-! ## Frames the part makes (R19, R160) -/

/-- A frame made now: it carries the frame type value and the station address held now (R17, log 25). -/
def makeFrame (s : State) (dest : Option Address) (content : Content) : OutFrame :=
  { frameType := s.upl.frameType, source := s.upl.station, dest := dest, content := content }

/-- Queue A's frames plus any reserved place (R161). -/
def queueALoad (s : State) : Nat := s.egs.a.length + if s.egs.reserved then 1 else 0

/-- An ALARM report offered to queue A: it joins when there is room beside the reserved place, and is
otherwise dropped and counted ALARM_DROPPED (R161). -/
def offerAlarm (r : AlarmReport) (s : State) : State :=
  if queueALoad s < Config.queueA then
    { s with egs := { s.egs with a := s.egs.a ++ [makeFrame s none (.alarm r)] } }
  else countGlobal .alarmDropped s

/-! ## Alarm flags (R168, R169) -/

/-- Bit of an alarm kind in the raised flags: bit k − 1 for kind k (1.7). -/
def AlarmKind.bit : AlarmKind → Nat
  | .headFenced => 0 | .headRestored => 1 | .runoutReverse => 2 | .tempStale => 3 | .markMerged => 4
  | .sawOverrun => 5 | .pieceBacklog => 6 | .pieceLost => 7 | .dieChanged => 8

/-- The flag alone, as a set of raised flags. -/
def AlarmKind.mask (k : AlarmKind) : BitVec 9 := 1#9 <<< k.bit

/-- The kinds whose flag clears at once after reporting (R169). -/
def AlarmKind.atOnce : AlarmKind → Bool
  | .headRestored => true
  | .dieChanged => true
  | _ => false

/-- The flag of kind k is raised. -/
def alarmRaised (k : AlarmKind) (s : State) : Bool := s.mga.alarms.getLsbD k.bit

/-- The raised flags replaced. -/
def setAlarms (flags : BitVec 9) (s : State) : State := { s with mga := { s.mga with alarms := flags } }

/-- The flag of kind k cleared; clearing makes no report (R169). -/
def clearAlarm (k : AlarmKind) (s : State) : State := setAlarms (s.mga.alarms &&& ~~~ k.mask) s

/-- A block raises an alarm (R168): a clear flag becomes raised and a report is offered, with the flags as
they stand after the raising; a raised flag stays and makes no report. -/
def raiseAlarm (k : AlarmKind) (subject : Nat) (s : State) : State :=
  if alarmRaised k s then s
  else
    let flags := s.mga.alarms ||| k.mask
    let s := offerAlarm { kind := k, subject := subject, raised := flags } (setAlarms flags s)
    if k.atOnce then clearAlarm k s else s

end Sys2Proof.Machine
end

