-- ==== Sys2Proof/Machine/Pieces.lean ====
section
/-! DEFINITION. The piece unit (spec/09) and the queueing of piece reports (10.2). -/

namespace Sys2Proof.Machine

/-- A piece with nothing folded in, beginning at the given cell (R147, R148). -/
def Piece.new (first : Word32) : Piece :=
  { first := first, cells := 0, good := 0, warn := 0, hold := 0, scrap := 0, reasons := 0, zones := [],
    overflow := false }

/-! ## Folding (R150, R151) -/

/-- The class a cell's verdict asks for: HOLD and SCRAP cells make zones (R151). -/
def CellVerdict.zoneClass : CellVerdict → Option ZoneClass
  | .hold => some .hold
  | .scrap => some .scrap
  | _ => none

/-- A zone that receives a cell: the reasons join, and the lead gauge is that of the earliest cell that
names one (R151). -/
def Zone.receive (r : CellResult) (z : Zone) : Zone :=
  { z with reasons := z.reasons ||| r.reasons, lead := z.lead.or r.lead }

/-- A zone made with one cell (R151). -/
def Zone.made (k : Nat) (c : ZoneClass) (r : CellResult) : Zone :=
  { offset := k, length := 1, cls := c, reasons := r.reasons, lead := r.lead }

/-- The eighth zone extended to cover the cell at offset k (R151). -/
def Zone.cover (k : Nat) (c : ZoneClass) (z : Zone) : Zone :=
  { z with length := k - z.offset + 1, cls := if c = .scrap then .scrap else z.cls }

/-- The placing of a HOLD or SCRAP cell, of class c at offset k, in a piece's zone list (R151), and whether it
set the overflow flag. -/
def placeZone (k : Nat) (c : ZoneClass) (r : CellResult) (zones : List Zone) : List Zone × Bool :=
  match zones.getLast? with
  | none => ([Zone.made k c r], false)
  | some z =>
    if z.cls = c ∧ z.offset + z.length = k then
      (zones.dropLast ++ [Zone.receive r { z with length := z.length + 1 }], false)
    else if zones.length < Config.zones then (zones ++ [Zone.made k c r], false)
    else (zones.dropLast ++ [Zone.receive r (z.cover k c)], true)

/-- The offset of cell n from a piece's first cell, modulo 2^32 (R151). -/
def Piece.offsetOf (p : Piece) (n : Word32) : Nat := (n - p.first).toNat

/-- A closed cell folded into a piece (R150, R151). -/
def Piece.fold (n : Word32) (r : CellResult) (p : Piece) : Piece :=
  let p1 : Piece :=
    { p with
      cells := p.cells + 1
      good := p.good + if r.verdict = .good then 1 else 0
      warn := p.warn + if r.verdict = .warn then 1 else 0
      hold := p.hold + if r.verdict = .hold then 1 else 0
      scrap := p.scrap + if r.verdict = .scrap then 1 else 0
      reasons := p.reasons ||| r.reasons }
  match r.verdict.zoneClass with
  | none => p1
  | some c =>
    let placed := placeZone (p.offsetOf n) c r p.zones
    { p1 with zones := placed.1, overflow := p.overflow || placed.2 }

/-! ## Piece reports (R163, R164) -/

/-- Some log entry is UNSENT. -/
def someUnsent (s : State) : Bool := s.pcu.log.any (!·.sent)

/-- The log entries marked SENT and the reports made, oldest UNSENT first, with room for `room` reports. -/
def queueFromLog (mk : CompletedPiece → OutFrame) : Nat → List LogEntry → List LogEntry × List OutFrame
  | _, [] => ([], [])
  | room, e :: es =>
    if e.sent then
      let r := queueFromLog mk room es
      (e :: r.1, r.2)
    else
      match room with
      | 0 => (e :: es, [])
      | n + 1 =>
        let r := queueFromLog mk n es
        ({ e with sent := true } :: r.1, mk e.completed :: r.2)

/-- The PIECE_BACKLOG flag clears when no log entry remains UNSENT (R164). -/
def backlogClearTest (s : State) : State := if someUnsent s then s else clearAlarm .pieceBacklog s

/-- Piece reports queued from the logs while queue B has room, in completion order (R163); then the clearing
test of R164. -/
def queuePieceReports (s : State) : State :=
  let r := queueFromLog (fun c => makeFrame s none (.piece c)) (Config.queueB - s.egs.b.length) s.pcu.log
  backlogClearTest
    { s with pcu := { s.pcu with log := r.1 }, egs := { s.egs with b := s.egs.b ++ r.2 } }

/-- The PIECE_BACKLOG alarm, raised when an entry is left UNSENT, with the strand of the oldest (R164). -/
def backlogRaiseTest (s : State) : State :=
  match s.pcu.log.find? (!·.sent) with
  | some e => raiseAlarm .pieceBacklog e.completed.strand.val s
  | none => s

/-! ## Completion (R152–R156) -/

/-- The verdict of a piece completed at the closing of its cut cell (R153). -/
def pieceVerdict (scrapLimit : Nat) (p : Piece) : PieceVerdict :=
  if scrapLimit * p.cells ≤ p.scrap * 100 then .scrap
  else if 0 < p.hold then .hold
  else if 0 < p.scrap then .trim
  else .accept

/-- Counter of pieces with a verdict (12.1). -/
def PieceVerdict.counter : PieceVerdict → StrandCounter
  | .accept => .piecesAccept | .trim => .piecesTrim | .hold => .piecesHold | .scrap => .piecesScrap
  | .aborted => .piecesAborted

/-- The number of log entries of a strand. -/
def logCount (t : Fin 4) (log : List LogEntry) : Nat := log.countP (·.completed.strand = t)

/-- The log without strand t's oldest entry. -/
def dropOldest (t : Fin 4) (log : List LogEntry) : List LogEntry := log.eraseP (·.completed.strand = t)

/-- Room made in strand t's full log (R155): the oldest entry is removed; if it was UNSENT its report is
lost, PIECE_LOST is counted and raised, and the clearing test of R164 is made (log 19). -/
def makeLogRoom (t : Fin 4) (s : State) : State :=
  if logCount t s.pcu.log < Config.pieceLog then s
  else
    match s.pcu.log.find? (·.completed.strand = t) with
    | none => s
    | some e =>
      let s := setLog (dropOldest t s.pcu.log) s
      if e.sent then s
      else backlogClearTest (raiseAlarm .pieceLost t.val (countStrand t .pieceLost s))

/-- A completed piece enters its strand's log as UNSENT (R155), and its report is queued if queue B has room
(R163, R164). -/
def logPiece (c : CompletedPiece) (s : State) : State :=
  let s := makeLogRoom c.strand s
  let s := setLog (s.pcu.log ++ [{ completed := c, sent := false }]) s
  backlogRaiseTest (queuePieceReports s)

/-- Strand t's scrap gate is asserted, or its hold restarts (R156). -/
def assertGate (t : Fin 4) (s : State) : State :=
  s.modPieces t fun p => { p with gate := some (s.now + s.pcu.holdTime * 1000) }

/-- A piece of strand t completes with a verdict (R152): number, counter, log and report, scrap gate. -/
def completePiece (t : Fin 4) (v : PieceVerdict) (p : Piece) (s : State) : State :=
  let number := (s.pcu.strands[t]).next
  let s := s.modPieces t fun q => { q with next := q.next + 1 }
  let s := countStrand t v.counter s
  let s := logPiece { strand := t, verdict := v, number := number, piece := p } s
  if v = .scrap then assertGate t s else s

/-- A closed cell handed to the piece unit (R150): folded into each closing piece that awaits it, which then
completes, and then into the open piece. -/
def foldCell (t : Fin 4) (n : Word32) (r : CellResult) (s : State) : State :=
  let closing := (s.pcu.strands[t]).closing
  let s := s.modPieces t fun q => { q with closing := closing.filter (·.cut ≠ n) }
  let s := forEach (closing.filter (·.cut = n))
    (fun c s =>
      let p := c.piece.fold n r
      completePiece t (pieceVerdict (servingDie s).entry.scrapLimit p) p s) s
  s.modPieces t fun q => { q with openPiece := q.openPiece.map (Piece.fold n r) }

/-! ## Cuts (R148, R149) -/

/-- Strand t is cut in cell n: its open piece becomes a closing piece and a new one begins (R148). -/
def cutStrand (n : Word32) (t : Fin 4) (s : State) : State :=
  s.modPieces t fun q =>
    { q with
      closing := q.closing ++ (q.openPiece.map fun p => { piece := p, cut := n : ClosingPiece }).toList
      openPiece := some (Piece.new n) }

/-- A strand in use already holds four closing pieces (R149). -/
def closingFull (s : State) : Bool :=
  (usedStrands s).any fun t => Config.closingPieces ≤ (s.pcu.strands[t]).closing.length

/-- A cut with captured station coordinate m handed to the piece unit (R148), or refused when four closing
pieces stand (R149). -/
def takeCut (m : Nat) (s : State) : State :=
  match s.lmp.geometry with
  | none => s
  | some g =>
    if closingFull s then raiseAlarm .sawOverrun 0 (countGlobal .sawOverrun s)
    else forEach (usedStrands s) (cutStrand (seqOf (g.sawCell m))) s

/-! ## Flush (R147, R154) -/

/-- Strand t's closing pieces complete ABORTED, head to tail, and its open piece is discarded (R154). -/
def abortStrand (t : Fin 4) (s : State) : State :=
  let closing := (s.pcu.strands[t]).closing
  let s := s.modPieces t fun q => { q with closing := [], openPiece := none }
  forEach closing (fun c s => completePiece t .aborted c.piece s) s

/-- The piece unit's part of a flush (R154, then R147). -/
def flushPieces (s : State) : State :=
  let s := forEach (List.finRange 4) abortStrand s
  forEach (usedStrands s) (fun t s => s.modPieces t fun q => { q with openPiece := some (Piece.new 0) }) s

/-! ## Scrap gates (R156) -/

/-- Strand t's gate is released once its release time is reached (R156). -/
def releaseGate (t : Fin 4) (s : State) : State :=
  match (s.pcu.strands[t]).gate with
  | some due => if due ≤ s.now then s.modPieces t fun q => { q with gate := none } else s
  | none => s

/-- GATE_RELEASE (R156). -/
def execGateRelease (strand : Nat) (s : State) : Host.Outcome State Fault Refusal :=
  withIndex strand s releaseGate

end Sys2Proof.Machine
end

