-- ==== Sys2Proof/Machine/LengthMap.lean ====
section
/-! DEFINITION. The length map (spec/07): marks on cells, recycling, station entry, saw crossing and the
cell verdict, with the pending mark list and proof marks that a recycling offers (R142, R143). -/

namespace Sys2Proof.Machine

/-! ## Marks on cells (R117) -/

/-- The more severe of two consequences, SCRAP above HOLD above NOTE (R117). -/
def Consequence.worse : Consequence → Consequence → Consequence
  | .scrap, _ => .scrap
  | _, .scrap => .scrap
  | .hold, _ => .hold
  | _, .hold => .hold
  | .note, .note => .note

/-- a is more severe than b (R141). -/
def Consequence.moreSevere (a b : Consequence) : Bool := a.worse b != b

/-- A mark joins the set, or leaves the more severe consequence of its kind (R117). -/
def joinMark (c : Consequence) (old : Option Consequence) : Option Consequence :=
  match old with
  | none => some c
  | some d => some (d.worse c)

/-- A mark of an event's kind joins a mark set (R117). -/
def MarkSet.add (k : MarkKind) (c : Consequence) (m : MarkSet) : MarkSet :=
  match k with
  | .weld => { m with weld := joinMark c m.weld }
  | .stop => { m with stop := joinMark c m.stop }
  | .start => { m with start := joinMark c m.start }

/-- A mark of an event's kind applied to a cell. -/
def Cell.mark (k : MarkKind) (c : Consequence) (cell : Cell) : Cell :=
  { cell with marks := cell.marks.add k c }

/-- A PROOF mark with consequence SCRAP applied to a cell (R143). -/
def Cell.markProof (cell : Cell) : Cell :=
  { cell with marks := { cell.marks with proof := joinMark .scrap cell.marks.proof } }

/-- A cell in a state other than CLOSED takes outcomes and marks (R107, R117). -/
def Cell.isOpen (c : Cell) : Bool := c.state != .closed

/-- A mark offered to cell n of strand t (R117): applied where the ring slot holds cell n, not CLOSED. -/
def offerMark (n : Word32) (k : MarkKind) (c : Consequence) (t : Fin 4) (s : State) : State :=
  s.modRing t (Ring.onCells (fun x => x.number == n && x.isOpen) (Cell.mark k c))

/-! ## Recycling (R119, R142, R143) -/

/-- A pending entry's range covers cell n (R142). -/
def PendingMark.covers (n : Word32) (e : PendingMark) : Bool := cellLe e.first n && cellLe n e.last

/-- The marks of the pending entries that cover cell n, offered in list order in every ring in use; entries
whose last cell is n then leave the list (R142). -/
def offerPending (n : Word32) (s : State) : State :=
  let s := forEach (s.emu.pending.filter (·.covers n))
    (fun e s => forEach (usedStrands s) (offerMark n e.kind e.consequence) s) s
  setMarks (s.emu.pending.filter (·.last ≠ n)) s

/-- Proof sampling selects cell n (R143). -/
def proofSelects (n : Word32) (s : State) : Bool :=
  s.emu.proofEnable && (n &&& s.emu.proofMask == s.emu.proofCompare &&& s.emu.proofMask)

/-- The PROOF mark of R143, offered to cell n in every ring in use whose strand is in the strand set. -/
def offerProof (n : Word32) (s : State) : State :=
  if proofSelects n s then
    forEach ((usedStrands s).filter fun t => s.emu.proofStrands.getLsbD t.val)
      (fun t s => s.modRing t (Ring.onCells (fun x => x.number == n && x.isOpen) Cell.markProof)) s
  else s

/-- Cell n is recycled in strand t's ring (R119). -/
def recycleIn (n : Word32) (t : Fin 4) (s : State) : State :=
  s.modRing t (Ring.put (slotOf n) (Cell.made n .approach false (servingDie s).entry.tag))

/-- Cell n is recycled in every ring in use, and receives its marks in the same event (R119, R142, R143). -/
def recycleCell (n : Word32) (s : State) : State :=
  offerProof n (offerPending n (forEach (usedStrands s) (recycleIn n) s))

/-! ## Station entry (R120) -/

/-- APPROACH and UNSEEN become LIVE at station entry (R120). -/
def Cell.enter (c : Cell) : Cell :=
  match c.state with
  | .approach => { c with state := .live }
  | .unseen => { c with state := .live }
  | _ => c

/-- Cell n is entered by the station in every ring in use (R120). -/
def enterCell (n : Word32) (s : State) : State :=
  forEach (usedStrands s) (fun t s => s.modRing t (Ring.onCell n Cell.enter)) s

/-! ## The cell verdict (R122–R124) -/

/-- The mark set holds a mark with consequence c. -/
def MarkSet.has (c : Consequence) (m : MarkSet) : Bool :=
  m.weld == some c || m.stop == some c || m.start == some c || m.proof == some c

/-- The gauge numbers 0–31. -/
def gaugeNumbers : List (Fin 32) := List.finRange 32

/-- A gauge of strand t whose severity is sev has a reject tally at or above the confirm count (R122). -/
def severityMet (die : DieRecord) (t : Fin 4) (sev : Consequence) (confirm : Nat) (c : Cell) : Bool :=
  gaugeNumbers.any fun g =>
    (die.gauges[t])[g].severity == sev && decide (confirm ≤ c.tallies[g])

/-- Some reject tally is above 0. -/
def Cell.anyReject (c : Cell) : Bool := gaugeNumbers.any fun g => decide (0 < c.tallies[g])

/-- The cell received no usable section (R122 line 3, R123). -/
def Cell.noData (c : Cell) : Bool := c.withData == 0 && c.blanked == 0

/-- Verdict that the NODATA consequence gives (R122 line 3). -/
def Consequence.nodataVerdict : Consequence → CellVerdict
  | .scrap => .scrap
  | .hold => .hold
  | .note => .warn

/-- The verdict of a closing cell: the first line of R122 that applies. -/
def cellVerdict (die : DieRecord) (t : Fin 4) (c : Cell) : CellVerdict :=
  if c.marks.has .scrap || severityMet die t .scrap die.entry.scrapConfirm c then .scrap
  else if c.unseen || c.marks.has .hold || severityMet die t .hold die.entry.holdConfirm c then .hold
  else if c.noData then die.entry.nodata.nodataVerdict
  else if decide (0 < c.warns) || c.anyReject || c.marks.has .note then .warn
  else .good

/-- A reason's bit, or nothing (1.7). -/
def reasonBit (i : Nat) (b : Bool) : BitVec 9 := if b then 1#9 <<< i else 0

/-- Every reason that applies to a closing cell (R123), as the bits of 1.7. -/
def cellReasons (c : Cell) : BitVec 9 :=
  reasonBit 0 c.marks.weld.isSome ||| reasonBit 1 c.marks.stop.isSome |||
  reasonBit 2 c.marks.start.isSome ||| reasonBit 3 c.marks.proof.isSome |||
  reasonBit 4 (c.anyReject || decide (0 < c.warns)) ||| reasonBit 5 c.unseen |||
  reasonBit 6 c.noData ||| reasonBit 7 (decide (0 < c.blanked) && c.withData == 0) |||
  reasonBit 8 (decide (0 < c.partials))

/-- The lead gauge of a closing cell (R124): the lowest gauge number among those with the highest tally;
none when every tally is 0. -/
def leadGauge (c : Cell) : Option Nat :=
  (gaugeNumbers.foldl
    (fun (best : Option Nat × Nat) g =>
      if best.2 < c.tallies[g] then (some g.val, c.tallies[g]) else best) (none, 0)).1

/-- The verdict group of a closing cell (R121). -/
def cellResult (die : DieRecord) (t : Fin 4) (c : Cell) : CellResult :=
  { verdict := cellVerdict die t c, reasons := cellReasons c, lead := leadGauge c }

/-- Counter of cells closed with a verdict (12.1). -/
def CellVerdict.counter : CellVerdict → StrandCounter
  | .good => .cellsGood | .warn => .cellsWarn | .hold => .cellsHold | .scrap => .cellsScrap

/-! ## Saw crossing (R121) -/

/-- Cell n of strand t crosses the saw: it is closed with its verdict, counted and handed to the piece unit
(R121, R150). -/
def closeCell (n : Word32) (t : Fin 4) (s : State) : State :=
  match (s.lmp.rings[t]).cell n with
  | none => s
  | some c =>
    if c.isOpen then
      let r := cellResult (servingDie s) t c
      let s := s.modRing t (Ring.onCell n fun x => { x with state := .closed, result := some r })
      foldCell t n r (countStrand t r.verdict.counter s)
    else s

/-- Cell n crosses the saw in every ring in use, in ascending strand order (R121). -/
def crossCell (n : Word32) (s : State) : State := forEach (usedStrands s) (closeCell n) s

/-! ## An advance of M (R118) -/

/-- The cells after cell a up to cell b, ascending. -/
def cellsAfter (a b : Int) : List Word32 :=
  (List.range (b - a).toNat).map fun (i : Nat) => seqOf (a + 1 + i)

/-- An advance of M from its old value to its new one, worked in the three stages of R118. -/
def advanceMap (old new : Nat) (s : State) : State :=
  match s.lmp.geometry with
  | none => s
  | some g =>
    if inspecting s then
      let s := forEach (cellsAfter (g.dieCell old) (g.dieCell new)) recycleCell s
      let s := forEach (cellsAfter (g.stationCell old) (g.stationCell new)) enterCell s
      forEach (cellsAfter (g.sawCell old - 1) (g.sawCell new - 1)) crossCell s
    else s

/-! ## Flush (R125) -/

/-- The map re-initialised at the present position (R125): M0 becomes M − D_ss, and each ring in use is set
to cells 0 to the die cell; every other ring is emptied. -/
def flushRings (s : State) : State :=
  match s.lmp.geometry with
  | none => s
  | some g =>
    let g : Geometry := { g with origin := (s.pos.station : Int) - g.stationToSaw }
    let s := { s with lmp := { geometry := some g, rings := .replicate 4 [] } }
    forEach (usedStrands s)
      (fun t s => s.modRing t fun _ =>
        Ring.flushed (g.dieCell s.pos.station) (servingDie s).entry.tag) s

end Sys2Proof.Machine
end

