-- ==== Sys2Proof/Machine/Operands.lean ====
section
/-! DEFINITION. The operand forms: what the bytes of a received frame say (spec/01 1.7, R1, R2, R18), and
what the arguments of a request say (spec/11). Offsets are from the start of the frame. -/

namespace Sys2Proof.Machine

/-! ## Frames (R1, R2) -/

/-- The frame's check sequence is right and its length is 60 to 1536 bytes (R1). -/
def soundFrame (f : Frame) : Bool :=
  f.fcs == crc32 f.bytes && decide (60 ≤ f.bytes.length) && decide (f.bytes.length ≤ 1536)

/-- Destination address of a frame. -/
def destAddr (bs : List Byte) : Address := BitVec.ofNat 48 (natAt bs 0 6)
/-- Source address of a frame. -/
def sourceAddr (bs : List Byte) : Address := BitVec.ofNat 48 (natAt bs 6 6)
/-- Type field of a frame. -/
def typeField (bs : List Byte) : Nat := natAt bs 12 2
/-- Version of the common header. -/
def versionField (bs : List Byte) : Nat := natAt bs 14 1
/-- Kind of the common header. -/
def kindField (bs : List Byte) : Nat := natAt bs 15 1
/-- Length of the common header. -/
def lengthField (bs : List Byte) : Nat := natAt bs 16 2

/-- A frame of the part's protocol (R2; R18 with at least 7): the type is the frame type value, the version
is 1, and the length field is at least `least` and no greater than the frame length less 14. -/
def protocolFrame (frameType : BitVec 16) (least : Nat) (bs : List Byte) : Bool :=
  typeField bs == frameType.toNat && versionField bs == 1 && decide (least ≤ lengthField bs) &&
    decide (lengthField bs + 14 ≤ bs.length)

/-- An address is a group address when bit 0 of its first byte is 1 (R17). -/
def groupAddress (a : Address) : Bool := a.getLsbD 40

/-! ## SCAN frames (1.7) -/

/-- Head id field of a SCAN frame. -/
def scanHead (bs : List Byte) : Nat := natAt bs 18 1
/-- Fragment index. -/
def scanIndex (bs : List Byte) : Nat := natAt bs 19 1
/-- Fragment count. -/
def scanCount (bs : List Byte) : Nat := natAt bs 20 1
/-- Scan sequence number. -/
def scanSeq (bs : List Byte) : BitVec 16 := BitVec.ofNat 16 (natAt bs 21 2)
/-- Point count. -/
def scanPoints (bs : List Byte) : Nat := natAt bs 23 2

/-- A sound SCAN frame (R2). -/
def soundScan (frameType : BitVec 16) (bs : List Byte) : Bool :=
  protocolFrame frameType 4 bs && kindField bs == 0x01 && decide (scanHead bs ≤ 15) &&
    decide (1 ≤ scanCount bs) && decide (scanCount bs ≤ 4) && decide (scanIndex bs < scanCount bs) &&
    decide (scanPoints bs ≤ 280) && lengthField bs == 11 + 5 * scanPoints bs

/-- The admitted head id of a stored SCAN frame (R3): its head id field, which STAMP has overwritten. -/
def admittedHead (bs : List Byte) : Fin 16 := ⟨scanHead bs % 16, Nat.mod_lt _ (by decide)⟩

/-- The frame with its head id field overwritten (R3, STAMP). -/
def stampHead (h : Fin 16) (bs : List Byte) : List Byte := bs.set 18 (BitVec.ofNat 8 h.val)

/-- A point of a scan: u, v in 5 µm units and quality q. -/
structure RawPoint where
  u : Int
  v : Nat
  q : Nat
  deriving DecidableEq, Repr

/-- The points of a SCAN frame, in order (1.7). -/
def scanPointList (bs : List Byte) : List RawPoint :=
  (List.range (scanPoints bs)).map fun i =>
    { u := intAt bs (25 + 5 * i) 2, v := natAt bs (27 + 5 * i) 2, q := natAt bs (29 + 5 * i) 1 }

/-! ## TEMP frames (1.7) -/

/-- A reading of a TEMP frame. -/
structure Reading where
  strand : Nat
  valid : Bool
  temp : Nat
  deriving DecidableEq, Repr

/-- Reading count of a TEMP frame. -/
def tempCount (bs : List Byte) : Nat := natAt bs 18 1

/-- The readings of a TEMP frame, in order (1.7). -/
def tempReadings (bs : List Byte) : List Reading :=
  (List.range (tempCount bs)).map fun j =>
    { strand := natAt bs (19 + 4 * j) 1, valid := natAt bs (20 + 4 * j) 1 % 2 == 1,
      temp := natAt bs (21 + 4 * j) 2 }

/-- A sound TEMP frame (R2). -/
def soundTemp (frameType : BitVec 16) (bs : List Byte) : Bool :=
  protocolFrame frameType 4 bs && kindField bs == 0x02 && decide (1 ≤ tempCount bs) &&
    decide (tempCount bs ≤ 4) && (tempReadings bs).all (fun r => decide (r.strand ≤ 3)) &&
    lengthField bs == 5 + 4 * tempCount bs

/-! ## Requests (R18, 1.7) -/

/-- An uplink frame the MGA is offered (R18). -/
def isRequest (frameType : BitVec 16) (station : Address) (bs : List Byte) : Bool :=
  destAddr bs == station && protocolFrame frameType 7 bs && kindField bs == 0x04

/-- The request a frame carries: its arguments are the length field less 7 bytes (R173). -/
def requestOf (bs : List Byte) : Request :=
  { source := sourceAddr bs, tag := BitVec.ofNat 16 (natAt bs 18 2),
    command := BitVec.ofNat 8 (natAt bs 20 1), args := field bs 21 (lengthField bs - 7) }

/-- A number of instances to an index of them, where there is one. -/
def toFin (n i : Nat) : Option (Fin n) := if h : i < n then some ⟨i, h⟩ else none

/-- One entry of a SET_CONFIG request (R175): item, index, and the eight bytes of its value. -/
structure ConfigEntry where
  item : Nat
  index : Nat
  value : List Byte
  deriving DecidableEq, Repr

/-- The value of a SET_CONFIG entry as the signed number it carries. -/
def ConfigEntry.signed (e : ConfigEntry) : Int := readInt e.value

/-- The k entries of a SET_CONFIG request, 11 bytes each (11.3). -/
def configEntries (args : List Byte) : List ConfigEntry :=
  (List.range (args.length / 11)).map fun i =>
    { item := natAt args (11 * i) 2, index := natAt args (11 * i + 2) 1,
      value := field args (11 * i + 3) 8 }

/-- The item and index pairs of a GET_CONFIG request, 3 bytes each (11.3). -/
def configPairs (args : List Byte) : List (Nat × Nat) :=
  (List.range (args.length / 3)).map fun i => (natAt args (3 * i) 2, natAt args (3 * i + 2) 1)

/-- The 40-byte records of a TABLE_DATA request (11.3, R174). -/
def tableRecords (args : List Byte) : List (List Byte) :=
  (List.range (args.length / 40)).map fun i => field args (40 * i) 40

end Sys2Proof.Machine
end

