-- ==== Sys2Proof/Machine/Points.lean ====
section
/-! DEFINITION. The point transform unit's work on points (spec/04 4.2, 4.3): the filters of R59, the
transform of R60 and the window accumulators of R61 and R62. -/

namespace Sys2Proof.Machine

/-- A point passes the filters of R59: the head's calibration is written, the point is not empty, and its
quality is not below the head's minimum. -/
def keepsPoint (head : Head) (p : RawPoint) : Bool :=
  head.written && decide (p.v ≠ 0) && decide (head.cal.minQuality ≤ p.q)

/-- The section coordinates of a point under a calibration (R60). -/
def transformPoint (c : Calibration) (p : RawPoint) : Int × Int :=
  let u := 5 * p.u
  let v := 5 * (p.v : Int)
  (saturate Config.coordLimit (c.x0 + roundedDiv (c.cosine * u - c.sine * v) 16384),
    saturate Config.coordLimit (c.y0 + roundedDiv (c.sine * u + c.cosine * v) 16384))

/-- A window qualifies for a point of head h (R61): its head set contains h and its box contains the
point, bounds included. -/
def windowTakes (w : Window) (h : Fin 16) (x y : Int) : Bool :=
  w.heads.getLsbD h.val && decide (w.xLo ≤ x) && decide (x ≤ w.xHi) && decide (w.yLo ≤ y) &&
    decide (y ≤ w.yHi)

/-- A point of head h added to a window accumulator (R62). -/
def Accumulator.add (h : Fin 16) (x y : Int) (a : Accumulator) : Accumulator :=
  let first := a.count == 0
  let full := decide (65535 ≤ a.count)
  { count := if full then a.count else a.count + 1
    minX := if first then x else min a.minX x
    maxX := if first then x else max a.maxX x
    minY := if first then y else min a.minY y
    maxY := if first then y else max a.maxY y
    sumX := if full then a.sumX else a.sumX + x
    sumY := if full then a.sumY else a.sumY + y
    contributors := a.contributors ||| (1#16 <<< h.val)
    tainted := a.tainted }

/-- A point offered to the windows of a strand, each with its accumulator (R61). -/
def offerPoint (h : Fin 16) (ws : List Window) (xy : Int × Int) (accs : List Accumulator) :
    List Accumulator :=
  List.zipWith (fun w a => if windowTakes w h xy.1 xy.2 then a.add h xy.1 xy.2 else a) ws accs

/-- The points of an accepted fragment of head h, used in a slot (R45, R56, R59–R62): those that pass the
filters are transformed and offered to the windows of the strand the calibration names. -/
def usePoints (die : DieRecord) (h : Fin 16) (head : Head) (points : List RawPoint) (slot : Slot) :
    Slot :=
  let t := head.cal.strand
  let ws := (die.windows[t]).toList
  let xys := (points.filter (keepsPoint head)).map (transformPoint head.cal)
  { slot with windows := upd slot.windows t fun accs => xys.foldl (fun a xy => offerPoint h ws xy a) accs }

/-- Every window accumulator of the slot, in any strand, whose contributor set holds h becomes tainted
(R46). -/
def taintHead (h : Fin 16) (slot : Slot) : Slot :=
  { slot with
    windows := updAll slot.windows fun accs =>
      accs.map fun a => { a with tainted := a.tainted || a.contributors.getLsbD h.val } }

end Sys2Proof.Machine
end

