-- ==== Sys2Proof/Machine/Pool.lean ====
section
/-! DEFINITION. The frame buffer pool at work: notices, flow control, eviction, grants and releases
(R10–R14). -/

namespace Sys2Proof.Machine

/-- A notice raised on a port (R13): a pending opposite notice, not yet begun, is withdrawn with it;
otherwise the notice becomes the pending notice. -/
def Port.raise (n : Notice) (p : Port) : Port :=
  match p.notice with
  | some m => if m = n then p else { p with notice := none }
  | none => { p with notice := some n }

/-- The flow-control check of a port whose use count is u (R13). -/
def Port.flowCheck (u : Nat) (p : Port) : Port :=
  if p.role = .off then p
  else
    match p.hold with
    | .flowing => if p.high ≤ u then { p with hold := .holding }.raise .hold else p
    | .holding => if u ≤ p.low then { p with hold := .flowing }.raise .resume else p

/-- The flow-control check of port p (R13). -/
def flowControlCheck (p : Fin 8) (s : State) : State :=
  s.modPort p (Port.flowCheck (useCount s.pool.held p))

/-- The held frames replaced. -/
def setHeld (held : List HeldFrame) (s : State) : State := { s with pool := { s.pool with held := held } }

/-- The first frame that p selects, changed by f; a frame no holder keeps any more leaves the pool (R11). -/
def changeFirst (p : HeldFrame → Bool) (f : HeldFrame → HeldFrame) : List HeldFrame → List HeldFrame
  | [] => []
  | x :: xs =>
    if p x then if (f x).isHeld then f x :: xs else xs
    else x :: changeFirst p f xs

/-- Queue D lets go of a frame. -/
def HeldFrame.dropD (f : HeldFrame) : HeldFrame := { f with queueD := .none }

/-- The oldest entry of queue D evicted (R14): queue D lets go of its frame and EVICTED is counted on the
admitting port. Where that releases the frame's blocks, the port's flow-control check follows (R11). -/
def evictOldest (s : State) : State :=
  match s.pool.held.find? HeldFrame.inQueueD with
  | none => s
  | some f =>
    let s := countPort f.port.castSucc .evicted
      (setHeld (changeFirst HeldFrame.inQueueD HeldFrame.dropD s.pool.held) s)
    if f.dropD.isHeld then s else flowControlCheck f.port s

/-- The eviction check repeated at most `fuel` times (R14). -/
def evictLoop : Nat → State → State
  | 0, s => s
  | fuel + 1, s =>
    if freeShared s < s.pool.evictionLevel && s.pool.held.any HeldFrame.inQueueD then
      evictLoop fuel (evictOldest s)
    else s

/-- The eviction check (R14): while the free shared blocks are below the eviction level and queue D holds
an entry, the oldest entry is evicted. Each eviction takes one entry, so the held frames bound it. -/
def evictionCheck (s : State) : State := evictLoop s.pool.held.length s

/-- The two checks that follow every grant, refusal and release (R10, R11). -/
def poolChecks (p : Fin 8) (s : State) : State := evictionCheck (flowControlCheck p s)

/-- A holder lets go of the first frame it holds (R11): `holds` tells its frames, `letGo` takes its hold
away. Where it was the last holder the blocks are released, and the checks of R13 and R14 follow. -/
def releaseFirst (holds : HeldFrame → Bool) (letGo : HeldFrame → HeldFrame) (s : State) : State :=
  match s.pool.held.find? holds with
  | none => s
  | some f =>
    let s := setHeld (changeFirst holds letGo s.pool.held) s
    if (letGo f).isHeld then s else poolChecks f.port s

/-- A frame of b blocks on port p is granted its blocks (R10): the extra shared blocks it needs fit in the
free shared blocks. -/
def grantFits (p : Fin 8) (b : Nat) (s : State) : Bool :=
  let u := useCount s.pool.held p
  let r := (s.ports[p]).reserve
  decide ((u + b - r) - (u - r) ≤ freeShared s)

end Sys2Proof.Machine
end

