-- ==== Sys2Proof/Machine/Thermal.lean ====
section
/-! DEFINITION. The temperature unit (spec/04 4.4–4.6): readings, expiries, samples, curves, shrink and
cold equivalent. -/

namespace Sys2Proof.Machine

/-! ## Readings (R63, R64) -/

/-- A strand's status is STALE. -/
def StrandTemp.isStale : StrandTemp → Bool
  | .stale _ _ => true
  | _ => false

/-- Strand t's reading record replaced. -/
def setTemp (t : Fin 4) (r : StrandTemp) (s : State) : State :=
  { s with tmu := { s.tmu with strands := upd s.tmu.strands t fun _ => r } }

/-- The TEMP_STALE flag clears when no strand below the strand count of the die in service remains STALE
(R64); with no die in service there is no such strand (log 33). -/
def staleClearTest (s : State) : State :=
  if (usedStrands s).any (fun t => (s.tmu.strands[t]).isStale) then s else clearAlarm .tempStale s

/-- One reading of a TEMP frame that port p admitted (R63). -/
def takeReading (p : Fin 8) (r : Reading) (s : State) : State :=
  match toFin 4 r.strand with
  | none => s
  | some t =>
    if r.valid && decide (r.temp ≤ 8000) then
      staleClearTest (setTemp t (.fresh r.temp s.now (s.now + s.tmu.holdTime * 1000)) s)
    else countPort p.castSucc .tempInvalid s

/-- The TMU takes the first TEMP frame it holds, its readings in order, and lets go of it (R5, R63, R11). -/
def takeTemp (s : State) : State :=
  match s.pool.held.find? (·.tmu) with
  | none => s
  | some f =>
    releaseFirst (·.tmu) (fun f => { f with tmu := false })
      (forEach (tempReadings f.bytes) (takeReading f.port) s)

/-- TMU_TAKE_TEMP (R63). -/
def execTmuTakeTemp (s : State) : Host.Outcome State Fault Refusal := .next (takeTemp s)

/-- Strand t's expiry, once reached: FRESH becomes STALE, and TEMP_STALE is raised when inspecting with a die
that has the strand (R64). -/
def expireTemp (t : Fin 4) (s : State) : State :=
  match s.tmu.strands[t] with
  | .fresh temp taken expiry =>
    if expiry ≤ s.now then
      let s := setTemp t (.stale temp taken) s
      if inspecting s && (usedStrands s).contains t then raiseAlarm .tempStale t.val s else s
    else s
  | _ => s

/-- TEMP_EXPIRY (R64). -/
def execTempExpiry (strand : Nat) (s : State) : Host.Outcome State Fault Refusal :=
  withIndex strand s expireTemp

/-- Every strand record takes status NONE, and the clearing test follows (R65). -/
def forgetTemps (s : State) : State :=
  staleClearTest { s with tmu := { s.tmu with strands := .replicate 4 .none } }

/-! ## Shrink (R72, R73) -/

/-- Entry i of a curve's copy, for i at most 32. -/
def curveEntry (copy : Vector Nat 33) (i : Nat) : Nat := copy[min i 32]

/-- The shrink value for temperature T in a copy of a curve (R72). -/
def shrinkAt (copy : Vector Nat 33) (temp : Nat) : Nat :=
  let i := temp / 200
  let f := temp % 200
  if 32 ≤ i then curveEntry copy 32
  else
    ((curveEntry copy i : Int) +
      roundedDiv (((curveEntry copy (i + 1) : Int) - curveEntry copy i) * f) 200).toNat

/-- The cold equivalent of a hot value under shrink value s (R73). -/
def coldEquivalent (h : Int) (s : Nat) : Int := h - roundedDiv (h * s) 65536

/-- The sample, flags and shrink value the TMU supplies for strand t at a slot opening (R66). -/
def sampleFor (s : State) (t : Fin 4) : TempSample :=
  let die := (servingDie s).entry
  let copy := (s.tmu.curves[die.curve]).inUse
  match s.tmu.strands[t] with
  | .fresh temp _ _ => { temp := temp, stale := false, byDefault := false, shrink := shrinkAt copy temp }
  | .stale temp _ => { temp := temp, stale := true, byDefault := false, shrink := shrinkAt copy temp }
  | .none =>
    { temp := die.defaultTemp, stale := false, byDefault := true,
      shrink := shrinkAt copy die.defaultTemp }

/-! ## Curves (R68, R69) -/

/-- A curve is FILLED: its written set holds all 33 entries (R68). -/
def Curve.filled (c : Curve) : Bool := c.written == BitVec.allOnes 33

/-- An entry written to a curve (R68): in the pending copy, and in the in-use copy too when the part is not
inspecting. The value is at most 8191. -/
def Curve.write (both : Bool) (i : Fin 33) (v : Nat) (c : Curve) : Curve :=
  { pending := upd c.pending i fun _ => v
    inUse := if both then upd c.inUse i fun _ => v else c.inUse
    written := c.written ||| (1#33 <<< i.val) }

/-- The pending copies of all four curves taken into use (R69). -/
def takeCurves (s : State) : State :=
  { s with tmu := { s.tmu with curves := updAll s.tmu.curves fun c => { c with inUse := c.pending } } }

end Sys2Proof.Machine
end

