-- ==== Sys2Proof/Machine/Sections.lean ====
section
/-! DEFINITION. The section assembly unit (spec/03): opening, fragments, closing, timeliness, the void
list; and the gauge evaluator's taking of slots (R94, R97). -/

namespace Sys2Proof.Machine

/-! ## Slots -/

/-- Section slot numbers, ascending. -/
def slotIds : List (Fin 16) := List.finRange 16

/-- Head ids, ascending. -/
def headIds : List (Fin 16) := List.finRange 16

/-- Slot i is held: not FREE (3.1). -/
def slotHeld (s : State) (i : Fin 16) : Bool := (s.sau.slots[i]).state != .free

/-- Slot i is COLLECTING. -/
def slotCollecting (s : State) (i : Fin 16) : Bool := (s.sau.slots[i]).state == .collecting

/-- A head is awaited in a slot (R38). -/
def HeadEntry.awaited (e : HeadEntry) : Bool :=
  e.participation == .measure && !e.released &&
    (e.contribution == .nothing || e.contribution == .part)

/-- No head is awaited in the slot (R47). -/
def Slot.noneAwaited (slot : Slot) : Bool := headIds.all fun h => !(slot.heads[h]).awaited

/-- A slot put into a list of slots kept in ascending order of open time. -/
def insertByOpen (s : State) (i : Fin 16) : List (Fin 16) → List (Fin 16)
  | [] => [i]
  | j :: js =>
    if (s.sau.slots[i]).openTime ≤ (s.sau.slots[j]).openTime then i :: j :: js
    else j :: insertByOpen s i js

/-- Slots in ascending order of open time (R49, R53); of equal times the one listed first (log 18). -/
def byOpenTime (s : State) (l : List (Fin 16)) : List (Fin 16) := l.foldr (insertByOpen s) []

/-- A number added to the void list, the oldest entry being removed first from a full one (R40). -/
def addVoid (seq : BitVec 16) (s : State) : State :=
  let l := s.sau.voidList
  let l := if l.length < Config.voidList then l else l.drop 1
  { s with sau := { s.sau with voidList := l ++ [seq] } }

/-! ## The evaluator's taking of a slot (R94, R97) -/

/-- A station coordinate lies in a blanking window (R97). -/
def blankedAt (s : State) (station : Nat) : Bool :=
  s.emu.blanking.any fun w => decide (w.start ≤ station) && decide (station < w.stop)

/-- The evaluator, when GEV_IDLE, takes the slot at the head of its queue (R94) and makes the blanking test
(R97). -/
def takeSlot (s : State) : State :=
  match s.gev.current, s.gev.queue with
  | none, i :: rest =>
    let blanked := blankedAt s (s.sau.slots[i]).station
    { s.modSlot i fun slot => { slot with state := .evaluating } with
      gev := { queue := rest, current := some (i, blanked) } }
  | _, _ => s

/-! ## Timeliness (R50, R51) -/

/-- Some head remains FENCED. -/
def someFenced (s : State) : Bool := headIds.any fun h => (s.heads[h]).state == .fenced

/-- The HEAD_FENCED flag clears when no head remains FENCED (R50). -/
def fencedClearTest (s : State) : State := if someFenced s then s else clearAlarm .headFenced s

/-- Head h is released in slot j where it is COLLECTING with participation MEASURE (R50). -/
def releaseIn (h : Fin 16) (j : Fin 16) (s : State) : State :=
  s.modSlot j fun slot =>
    if slot.state = .collecting ∧ (slot.heads[h]).participation = .measure then
      { slot with heads := upd slot.heads h fun e => { e with released := true } }
    else slot

/-- Head h is fenced at the closing of slot i (R50). -/
def fenceHead (i h : Fin 16) (s : State) : State :=
  let s := s.modHead h fun r => { r with state := .fenced, missRun := 0, restoreRun := 0 }
  let s := raiseAlarm .headFenced h.val (countHead h .fencings s)
  forEach (slotIds.filter (· ≠ i)) (releaseIn h) s

/-- Head h is restored (R51): the HEAD_FENCED flag's clearing test comes with the change of state, before the
HEAD_RESTORED alarm (log 17). -/
def restoreHead (h : Fin 16) (s : State) : State :=
  let s := s.modHead h fun r => { r with state := .measure, missRun := 0, restoreRun := 0 }
  raiseAlarm .headRestored h.val (fencedClearTest s)

/-- Head h's miss run at the closing of slot i, with participation and state MEASURE (R50). -/
def updateMiss (i h : Fin 16) (complete : Bool) (s : State) : State :=
  if complete then s.modHead h fun r => { r with missRun := 0 }
  else
    let run := satSucc 255 (s.heads[h]).missRun
    let s := countHead h .misses (s.modHead h fun r => { r with missRun := run })
    if s.sau.fenceLimit ≤ run then fenceHead i h s else s

/-- Head h's restore run at a closing, with participation and state FENCED (R51). -/
def updateRestore (h : Fin 16) (complete : Bool) (s : State) : State :=
  if complete then
    let run := satSucc 255 (s.heads[h]).restoreRun
    let s := s.modHead h fun r => { r with restoreRun := run }
    if s.sau.restoreCount ≠ 0 ∧ s.sau.restoreCount ≤ run then restoreHead h s else s
  else s.modHead h fun r => { r with restoreRun := 0 }

/-- Head h brought up to date at the closing of slot i (R50, R51). Both runs follow the participation in the slot
and the state at the closing. So a slot that was open when the head was fenced counts towards the miss run again
where the head is back in MEASURE at its closing, by R50, though R51 says that such slots count towards neither
run: the model's choice between the two (log 41). -/
def updateTimeliness (i h : Fin 16) (s : State) : State :=
  let e := (s.sau.slots[i]).heads[h]
  let complete := decide (e.contribution = .complete)
  match e.participation, (s.heads[h]).state with
  | .measure, .measure => updateMiss i h complete s
  | .fenced, .fenced => updateRestore h complete s
  | _, _ => s

/-! ## Closing (R47–R49) -/

/-- The filtered section counter of a head filter (12.1). -/
def filterCounter (f : Fin 2) : GlobalCounter := if f = 0 then .filtered0 else .filtered1

/-- Head filter f counts slot i's closing when its head is COMPLETE there (R49, R182). -/
def countFilter (i : Fin 16) (f : Fin 2) (s : State) : State :=
  let hf := s.ctb.filters[f]
  if hf.enabled && ((s.sau.slots[i]).heads[hf.head]).contribution == .complete then
    countGlobal (filterCounter f) s
  else s

/-- Slot i closes, by the three steps of R49; an idle evaluator takes it at once (R94). -/
def closeOne (i : Fin 16) (s : State) : State :=
  let s := forEach headIds (updateTimeliness i) s
  let s := forEach (List.finRange 2) (countFilter i) s
  let s := s.modSlot i fun slot => { slot with state := .closedWaiting }
  takeSlot (setEvaluator { s.gev with queue := s.gev.queue ++ [i] } s)

/-- The COLLECTING slots with no head awaited, in ascending order of open time. -/
def readySlots (s : State) : List (Fin 16) :=
  byOpenTime s (slotIds.filter fun i => slotCollecting s i && (s.sau.slots[i]).noneAwaited)

/-- The slots of a work list closed one after another, each in full; slots that releases leave with no head
awaited follow in ascending order of open time (R49, log 18). No slot closes twice, so sixteen bound it. -/
def closeAll : Nat → List (Fin 16) → State → State
  | 0, _, s => s
  | _, [], s => s
  | n + 1, i :: rest, s =>
    let s := closeOne i s
    closeAll n (rest ++ (readySlots s).filter (!rest.contains ·)) s

/-- Slot i closes, with every closing that follows from it (R49). -/
def closeSlot (i : Fin 16) (s : State) : State := closeAll 16 [i] s

/-- The completion test of R47 on slot i. -/
def completionTest (i : Fin 16) (s : State) : State :=
  if slotCollecting s i && (s.sau.slots[i]).noneAwaited then closeSlot i s else s

/-- Slot i's deadline, once reached while it is COLLECTING, closes it (R48). -/
def expireDeadline (i : Fin 16) (s : State) : State :=
  if slotCollecting s i && decide ((s.sau.slots[i]).deadline ≤ s.now) then closeSlot i s else s

/-- SLOT_DEADLINE_EXPIRY (R48). -/
def execSlotDeadlineExpiry (slot : Nat) (s : State) : Host.Outcome State Fault Refusal :=
  withIndex slot s expireDeadline

/-! ## Opening (R38, R39) -/

/-- Participation of a head opened in its present state (R38). -/
def HeadState.participation : HeadState → Participation
  | .measure => .measure
  | .fenced => .fenced
  | .off => .out
  | .listen => .out

/-- The number of windows strand t's accumulators are kept for: the window count of a strand in use. -/
def accumulatorCount (s : State) (t : Fin 4) : Nat :=
  if (usedStrands s).contains t then min 64 ((servingDie s).strands[t]).windowCount else 0

/-- The record of a slot opened now for a trigger (R38). -/
def openedSlot (seq : BitVec 16) (station time : Nat) (s : State) : Slot :=
  { state := .collecting
    seq := seq
    station := station
    cell := stationCellOf s station
    openTime := time
    deadline := time + s.sau.timeout
    temps := Vector.ofFn fun t =>
      if (usedStrands s).contains t then sampleFor s t
      else { temp := 0, stale := false, byDefault := false, shrink := 0 }
    heads := Vector.ofFn fun h => HeadEntry.fresh (s.heads[h]).state.participation
    windows := Vector.ofFn fun t => List.replicate (accumulatorCount s t) Accumulator.empty }

/-- Slot i is given to a trigger (R38): its record is filled, its number leaves the void list, and it closes
at its opening when no head is awaited. -/
def openSlot (i : Fin 16) (seq : BitVec 16) (station time : Nat) (s : State) : State :=
  let slot := openedSlot seq station time s
  let s := s.modSlot i fun _ => slot
  completionTest i { s with sau := { s.sau with voidList := s.sau.voidList.filter (· ≠ seq) } }

/-- The section of number seq is SKIPPED (R39). -/
def skipSection (seq : BitVec 16) (s : State) : State := addVoid seq (countGlobal .skipped s)

/-- The COLLECTING slot with the earliest open time, closed early and counted EARLY_CLOSE (R39). -/
def closeEarly (s : State) : State :=
  match byOpenTime s (slotIds.filter (slotCollecting s)) with
  | i :: _ => countGlobal .earlyClose (closeSlot i s)
  | [] => s

/-- A trigger offered to the section assembly unit (R38, R39). -/
def offerTrigger (seq : BitVec 16) (station time : Nat) (s : State) : State :=
  if slotIds.any (fun i => slotHeld s i && (s.sau.slots[i]).seq == seq) then skipSection seq s
  else
    match slotIds.find? (fun i => !slotHeld s i) with
    | some i => openSlot i seq station time s
    | none => skipSection seq (closeEarly s)

/-! ## Fragments (R42, R44–R46) -/

/-- Number a is newer than number b (R42). -/
def newer (a b : BitVec 16) : Bool := decide (1 ≤ (a - b).toNat ∧ (a - b).toNat ≤ 32767)

/-- What R42 judges a fragment of number q. -/
inductive FragmentCase
  | stray | late
  | collecting (slot : Fin 16)
  deriving DecidableEq, Repr

/-- The tests of R42, in order, on a fragment of number seq. -/
def fragmentCase (s : State) (seq : BitVec 16) : FragmentCase :=
  if newer seq s.trg.seq then .stray
  else if s.sau.voidList.contains seq then .stray
  else
    match slotIds.find? (fun i => slotHeld s i && (s.sau.slots[i]).seq == seq) with
    | some i => if slotCollecting s i then .collecting i else .late
    | none =>
      if (slotIds.filter (slotHeld s)).all (fun i => newer (s.sau.slots[i]).seq seq) then .late
      else .stray

/-- Every index below the fragment count is in the received set (R44). -/
def allReceived (received : BitVec 4) (c : Nat) : Bool :=
  (List.range c).all fun i => received.getLsbD i

/-- Slot i's entry of head h changed. -/
def modEntry (i h : Fin 16) (f : HeadEntry → HeadEntry) (s : State) : State :=
  s.modSlot i fun slot => { slot with heads := upd slot.heads h f }

/-- The fragment accepted in a head entry (R44 case 5). -/
def HeadEntry.accept (index count : Nat) (e : HeadEntry) : HeadEntry :=
  let c := e.count.getD count
  let received := e.received ||| (1#4 <<< index)
  { e with
    count := some c
    received := received
    contribution := if allReceived received c then .complete else .part }

/-- A fragment of a COLLECTING slot i judged against its head's entry (R44), its points used (R45) or its
windows tainted (R46), and the slot tested for completion (R47). -/
def judgeInSlot (i : Fin 16) (bs : List Byte) (s : State) : State :=
  let h := admittedHead bs
  let e := (s.sau.slots[i]).heads[h]
  let index := scanIndex bs
  let cnt := scanCount bs
  if e.participation = .out then countHead h .stray s
  else if e.contribution = .corrupt then countHead h .corrupt s
  else if e.received.getLsbD index then countHead h .duplicate s
  else if e.count.isSome && e.count != some cnt then
    let s := modEntry i h (fun e => { e with contribution := .corrupt }) (countHead h .corrupt s)
    completionTest i (s.modSlot i (taintHead h))
  else
    let s := modEntry i h (HeadEntry.accept index cnt) (countHead h .accepted s)
    let s :=
      if e.participation = .measure then
        s.modSlot i (usePoints (servingDie s) h s.heads[h] (scanPointList bs))
      else s
    completionTest i s

/-- A fragment judged when the PTU takes it (R42). -/
def judgeFragment (bs : List Byte) (s : State) : State :=
  match fragmentCase s (scanSeq bs) with
  | .stray => countHead (admittedHead bs) .stray s
  | .late => countHead (admittedHead bs) .late s
  | .collecting i => judgeInSlot i bs s

/-- The PTU takes the fragment at the head of its work queue, judges it, and lets go of it (R42, R45). -/
def takeFragment (s : State) : State :=
  match s.pool.held.find? (·.ptu) with
  | none => s
  | some f => releaseFirst (·.ptu) (fun f => { f with ptu := false }) (judgeFragment f.bytes s)

/-- FRAGMENT_TAKE (R42). -/
def execFragmentTake (s : State) : Host.Outcome State Fault Refusal := .next (takeFragment s)

/-! ## Flush (R53, R96) -/

/-- The section assembly unit's and the evaluator's part of a flush (R53, R96): every held slot is discarded,
its number joining the void list in order of open time, and the evaluator becomes idle with an empty queue. -/
def flushSlots (s : State) : State :=
  let numbers := (byOpenTime s (slotIds.filter (slotHeld s))).map fun i => (s.sau.slots[i]).seq
  let s := forEach numbers addVoid s
  let s := forEach slotIds (fun i => State.modSlot i fun _ => .empty) s
  setEvaluator { queue := [], current := none } s

end Sys2Proof.Machine
end

