-- ==== Sys2Proof/Machine/Flush.lean ====
section
/-! DEFINITION. The flush of the length map with its part in every neighbouring block (R125–R127). -/

namespace Sys2Proof.Machine

/-- The event and mark unit's part of a flush (R142, R144): the pending list is emptied, and blanking windows
whose end is at or below M are removed. -/
def flushEvents (s : State) : State :=
  { s with emu := { s.emu with
      pending := [], blanking := s.emu.blanking.filter fun w => s.pos.station < w.stop } }

/-- A flush of the length map, taken with the die that serves after its cause (R125, R126). -/
def flushMap (s : State) : State := flushEvents (flushPieces (flushSlots (flushRings s)))

end Sys2Proof.Machine
end

