-- ==== Sys2Proof/Machine/Trigger.lean ====
section
/-! DEFINITION. The trigger generator (spec/02 2.2): arming, due tests, firing, pulses. -/

namespace Sys2Proof.Machine

/-- TRG is ARMED while INSPECTING with the mode PITCH or TIME (R25). -/
def trgArmed (s : State) : Bool := inspecting s && s.trg.mode != .off

/-- TRG becomes STOPPED (R26): no deferred trigger, period timer stopped. -/
def stopTrigger (s : State) : State := { s with trg := { s.trg with deferred := false, timer := none } }

/-- TRG becomes ARMED in its present mode (R25); with the mode OFF it is stopped. -/
def armTrigger (s : State) : State :=
  match s.trg.mode with
  | .off => stopTrigger s
  | .pitch => { s with trg := { s.trg with grid := s.pos.station, deferred := false, timer := none } }
  | .time => { s with trg := { s.trg with deferred := false, timer := some (s.now + s.trg.period) } }

/-- The last trigger time is none, or at least Tmin has passed since it (R27). -/
def tminPassed (s : State) : Bool :=
  match s.trg.last with
  | none => true
  | some t => decide (t + s.trg.tmin ≤ s.now)

/-- A start time put into a pulse schedule in ascending order (R31). -/
def insertTime (t : Nat) : List Nat → List Nat
  | [] => [t]
  | u :: us => if t < u then t :: u :: us else u :: insertTime t us

/-- Head port numbers, ascending. -/
def portIds : List (Fin 8) := List.finRange 8

/-- A pulse scheduled on port p when its role is HEAD, after its phase delay (R31). -/
def schedulePulse (p : Fin 8) (s : State) : State :=
  if (s.ports[p]).role = .head then
    s.modOutput p fun o => { o with schedule := insertTime (s.now + o.phaseDelay) o.schedule }
  else s

/-- A trigger fires (R30). -/
def fireTrigger (s : State) : State :=
  let s := { s with trg := { s.trg with seq := s.trg.seq + 1, last := some s.now } }
  let s := forEach portIds schedulePulse (countGlobal .triggers s)
  offerTrigger s.trg.seq s.pos.station s.now s

/-- A PITCH trigger fires (R28): G advances by whole pitches up to M, the points passed over are counted. -/
def firePitch (s : State) : State :=
  let k := (s.pos.station - s.trg.grid) / s.trg.pitch
  let s := { s with trg := { s.trg with grid := s.trg.grid + k * s.trg.pitch, deferred := false } }
  fireTrigger (countGlobalBy .triggerOverrun (k - 1) s)

/-- A TIME trigger fires, and the period timer restarts (R29). -/
def fireTime (s : State) : State :=
  fireTrigger { s with trg := { s.trg with deferred := false, timer := some (s.now + s.trg.period) } }

/-- The due test of PITCH mode (R27). -/
def pitchDueTest (s : State) : State :=
  if trgArmed s && s.trg.mode == .pitch && !s.trg.deferred &&
      decide (s.trg.grid + s.trg.pitch ≤ s.pos.station) then
    if tminPassed s then firePitch s else { s with trg := { s.trg with deferred := true } }
  else s

/-- A deferred trigger fires once Tmin has passed since the last trigger (R27, R29). -/
def fireDeferred (s : State) : State :=
  if s.trg.deferred && tminPassed s then
    match s.trg.mode with
    | .pitch => firePitch s
    | .time => fireTime s
    | .off => s
  else s

/-- TMIN_EXPIRY (R27, R29). -/
def execTminExpiry (s : State) : Host.Outcome State Fault Refusal := .next (fireDeferred s)

/-- The period timer's expiry, once reached in TIME mode (R29). -/
def expirePeriod (s : State) : State :=
  match s.trg.timer with
  | none => s
  | some e =>
    if e ≤ s.now ∧ trgArmed s ∧ s.trg.mode = .time then
      if tminPassed s then fireTime s else { s with trg := { s.trg with deferred := true, timer := none } }
    else s

/-- PERIOD_TIMER_EXPIRY (R29). -/
def execPeriodTimerExpiry (s : State) : Host.Outcome State Fault Refusal := .next (expirePeriod s)

/-- The first start time of port p's schedule, once reached, leaves it, and the output is ASSERTED until 10 µs
after it; a running pulse is merged (R32). -/
def startPulse (p : Fin 8) (s : State) : State :=
  match (s.trg.outputs[p]).schedule with
  | t :: rest =>
    if t ≤ s.now then
      s.modOutput p fun o => { o with schedule := rest, release := some (t + Config.pulseWidth) }
    else s
  | [] => s

/-- PULSE_START (R32). -/
def execPulseStart (port : Nat) (s : State) : Host.Outcome State Fault Refusal :=
  withIndex port s startPulse

/-- Port p's output is RELEASED once its release time is reached (R32). -/
def endPulse (p : Fin 8) (s : State) : State :=
  match (s.trg.outputs[p]).release with
  | some t => if t ≤ s.now then s.modOutput p fun o => { o with release := none } else s
  | none => s

/-- PULSE_RELEASE (R32). -/
def execPulseRelease (port : Nat) (s : State) : Host.Outcome State Fault Refusal :=
  withIndex port s endPulse

end Sys2Proof.Machine
end

