-- ==== Sys2Proof/Machine/Die.lean ====
section
/-! DEFINITION. The die library (spec/05): validation, the closing of the table window, and the placing of
dies in service. -/

namespace Sys2Proof.Machine

/-! ## Validation (R80, R81) -/

/-- A failed check of R80: its number, and the fault strand and entry. -/
structure CheckFault where
  number : Nat
  strand : Option Nat
  entry : Option Nat
  deriving DecidableEq, Repr

/-- The strands a record is validated on: those below its strand count (R80). -/
def recordStrands (r : DieRecord) : List (Fin 4) :=
  (List.finRange 4).filter (·.val < r.entry.strandCount)

/-- The windows of strand t below its window count, with their numbers (R80). -/
def recordWindows (r : DieRecord) (t : Fin 4) : List (Fin 64) :=
  (List.finRange 64).filter (·.val < (r.strands[t]).windowCount)

/-- The gauges of strand t below its gauge count, with their numbers (R80). -/
def recordGauges (r : DieRecord) (t : Fin 4) : List (Fin 32) :=
  (List.finRange 32).filter (·.val < (r.strands[t]).gaugeCount)

/-- The fault of a check applied to the items of each strand in turn: the first item that fails (R80). -/
def firstFailing {n : Nat} (number : Nat) (r : DieRecord) (items : Fin 4 → List (Fin n))
    (passes : Fin 4 → Fin n → Bool) : Option CheckFault :=
  (recordStrands r).findSome? fun t =>
    ((items t).find? (fun i => !passes t i)).map fun i =>
      { number := number, strand := some t.val, entry := some i.val }

/-- A check of the record as a whole: its fault names no strand and no entry (R80). -/
def wholeCheck (number : Nat) (passes : Bool) : Option CheckFault :=
  if passes then none else some { number := number, strand := none, entry := none }

/-- Check 3: counts of windows and gauges; the entry is the strand's descriptor, t + 1 (R80). -/
def checkCounts (r : DieRecord) : Option CheckFault :=
  ((recordStrands r).find? fun t =>
    let d := r.strands[t]
    !(decide (1 ≤ d.windowCount) && decide (d.windowCount ≤ 64) && decide (1 ≤ d.gaugeCount) &&
      decide (d.gaugeCount ≤ 32))).map
    fun t => { number := 3, strand := some t.val, entry := some (t.val + 1) }

/-- The nine checks of R80 in order; the fault of the first that fails. -/
def validate (curves : Vector Curve 4) (heads : Vector Head 16) (r : DieRecord) : Option CheckFault :=
  (wholeCheck 1 (decide (1 ≤ r.entry.strandCount) && decide (r.entry.strandCount ≤ 4))).or <|
  (wholeCheck 2 (curves[r.entry.curve]).filled).or <|
  (checkCounts r).or <|
  (firstFailing 4 r (recordWindows r) fun t w =>
    let b := (r.windows[t])[w]
    decide (b.xLo ≤ b.xHi) && decide (b.yLo ≤ b.yHi)).or <|
  (firstFailing 5 r (recordWindows r) fun t w =>
    ((r.windows[t])[w]).heads &&& ~~~ (r.strands[t]).heads == 0).or <|
  (firstFailing 6 r (fun t => headIds.filter fun h => (r.strands[t]).heads.getLsbD h.val) fun t h =>
    (heads[h]).written && (heads[h]).cal.strand == t).or <|
  (firstFailing 7 r (recordGauges r) fun t g =>
    let a := (r.gauges[t])[g]
    decide (a.windowA < (r.strands[t]).windowCount) &&
      (a.kind == .spread || decide (a.windowB < (r.strands[t]).windowCount))).or <|
  (firstFailing 8 r (recordGauges r) fun t g =>
    let a := (r.gauges[t])[g]
    decide (a.rejLo ≤ a.warnLo) && decide (a.warnLo ≤ 0) && decide (0 ≤ a.warnHi) &&
      decide (a.warnHi ≤ a.rejHi)).or <|
  wholeCheck 9
    (decide (1 ≤ r.entry.scrapConfirm) && decide (r.entry.scrapConfirm ≤ 15) &&
      decide (1 ≤ r.entry.holdConfirm) && decide (r.entry.holdConfirm ≤ 15) &&
      decide (1 ≤ r.entry.scrapLimit) && decide (r.entry.scrapLimit ≤ 100))

/-- A die slot after its validation (R81): READY with no fault, or FAULTY with the failed check. -/
def DieSlot.validated (fault : Option CheckFault) (d : DieSlot) : DieSlot :=
  match fault with
  | none => { d with state := .ready, faultNumber := none, faultStrand := none, faultEntry := none }
  | some f =>
    { d with state := .faulty, faultNumber := some f.number, faultStrand := f.strand,
             faultEntry := f.entry }

/-- The table window replaced. -/
def setWindow (w : TableWindow) (s : State) : State := { s with mga := { s.mga with window := w } }

/-- An open table window closes (R79): its target becomes none, and a DIE window's slot is validated (R80). -/
def closeWindow (s : State) : State :=
  match s.mga.window.target with
  | none => s
  | some target =>
    let s := setWindow { s.mga.window with target := none } s
    match target with
    | .die k _ =>
      let fault := validate s.tmu.curves s.heads (s.dlb.slots[k]).record
      s.modDie k (DieSlot.validated fault)
    | .heads => s
    | .curve _ => s

/-! ## Service (5.4) -/

/-- The service state replaced. -/
def setService (v : Service) (s : State) : State := { s with dlb := { s.dlb with service := v } }

/-- Die slot k's state replaced. -/
def setDieState (k : Fin 8) (v : DieState) (s : State) : State := s.modDie k fun d => { d with state := v }

/-- Every slot in state `old` becomes READY (R88–R90, R93). -/
def readyFrom (old : DieState) (s : State) : State :=
  { s with dlb := { s.dlb with
      slots := updAll s.dlb.slots fun d => if d.state = old then { d with state := .ready } else d } }

/-- Slot k goes into service with the effects R87 and R89 share: the slot that served becomes READY, the map
is flushed, the curves are taken into use and the temperature records become NONE. -/
def placeInService (k : Fin 8) (s : State) : State :=
  forgetTemps (takeCurves (flushMap (setDieState k .inService (readyFrom .inService s))))

/-- The stillness timer replaced. -/
def setStillness (v : Stillness) (s : State) : State := { s with emu := { s.emu with stillness := v } }

/-- A die placed in service from IDLE (R87): the part becomes INSPECTING, TRG arms (R25) and the stillness
timer starts (R135). -/
def startInspection (k : Fin 8) (s : State) : State :=
  let s := armTrigger (setService .inspecting (placeInService k s))
  setStillness (.running (s.now + s.emu.stillTime * 1000)) s

/-- A staged die put in service at a push start (R89). -/
def changeDie (k : Fin 8) (s : State) : State := raiseAlarm .dieChanged k.val (placeInService k s)

/-- Slot k staged in place of any other (R88). -/
def stageDie (k : Fin 8) (s : State) : State := setDieState k .staged (readyFrom .staged s)

/-- Inspection ends (R90): the slots return to READY, the map is flushed, the part becomes IDLE, TRG stops
(R26), TEMP_STALE's clearing test is applied (R64) and the stillness timer halts (R135). -/
def endInspection (s : State) : State :=
  let s := flushMap (readyFrom .staged (readyFrom .inService s))
  setStillness .halted (staleClearTest (stopTrigger (setService .idle s)))

end Sys2Proof.Machine
end

