-- ==== Sys2Proof/Machine/Position.lean ====
section
/-! DEFINITION. The position tracker (spec/02 2.1): decoding, counts, and the handing on of each advance of
M (R23). -/

namespace Sys2Proof.Machine

/-! ## Decoding (R20) -/

/-- Place of a level pair in the forward cycle (R20). -/
def Levels.place (l : Levels) : Nat :=
  match l.a, l.b with
  | false, false => 0
  | true, false => 1
  | true, true => 2
  | false, true => 3

/-- What a change of the encoder inputs gives. -/
inductive CountKind
  | forward | reverse | none
  deriving DecidableEq, Repr

/-- The count a change from the decoder phase to a new pair gives (R20). -/
def decodeChange (sense : Sense) (phase new : Levels) : CountKind :=
  match (new.place + 4 - phase.place) % 4, sense with
  | 1, .normal => .forward
  | 1, .inverted => .reverse
  | 3, .normal => .reverse
  | 3, .inverted => .forward
  | _, _ => .none

/-! ## The stillness timer at an advance (R135) -/

/-- An advance of M to its present value restarts or re-arms the stillness timer (R135). -/
def advanceStillness (s : State) : State :=
  let restarted : Stillness := .running (s.now + s.emu.stillTime * 1000)
  match s.emu.stillness with
  | .halted => s
  | .running _ => { s with emu := { s.emu with stillness := restarted } }
  | .disarmed stop =>
    match s.lmp.geometry with
    | some g =>
      if stop + g.cellLength ≤ s.pos.station then { s with emu := { s.emu with stillness := restarted } }
      else s
    | none => s

/-! ## Counts (R21, R22) -/

/-- The clamp value −(reverse limit × 65536) (R22). -/
def clampValue (reverseLimit : Nat) : Int := -((reverseLimit : Int) * 65536)

/-- An advance of M from `old` to its present value: it clears the reverse latch and the RUNOUT_REVERSE alarm
(R21) and is handed to TRG, LMP and EMU (R23, log 16). -/
def takeAdvance (old : Nat) (s : State) : State :=
  let s := clearAlarm .runoutReverse { s with pos := { s.pos with latch := false } }
  advanceStillness (advanceMap old s.pos.station (pitchDueTest s))

/-- A forward count (R21): K is added to S, and whole position units go to M, up to 2^48 − 1. -/
def forwardCount (s : State) : State :=
  let sum := s.pos.acc + s.pos.scale
  let units := min (sum / 65536).toNat (Config.maxStation - s.pos.station)
  let acc := min (sum - units * 65536) 65535
  let old := s.pos.station
  let s := { s with pos := { s.pos with acc := acc, station := old + units } }
  if units = 0 then s else takeAdvance old s

/-- A reverse count (R22, log 13): K is subtracted from S down to the clamp value; reaching it with the latch
CLEAR sets the latch and raises RUNOUT_REVERSE. -/
def reverseCount (s : State) : State :=
  let low := clampValue s.pos.reverseLimit
  let acc := max low (s.pos.acc - s.pos.scale)
  if acc = low ∧ s.pos.latch = false then
    raiseAlarm .runoutReverse 0 { s with pos := { s.pos with acc := acc, latch := true } }
  else { s with pos := { s.pos with acc := acc } }

/-- The decoder judges the present pair against its phase, which becomes the present pair (R20). -/
def judgeEncoder (s : State) : State :=
  let kind := decodeChange s.pos.sense s.pos.phase s.pins.enc
  let s := setPhase s.pins.enc s
  match kind with
  | .forward => forwardCount s
  | .reverse => reverseCount s
  | .none => s

/-- ENC_A and ENC_B take new levels (R20); while a reset is in progress the decoder takes no count. -/
def changeEncoder (a b : Bool) (s : State) : State :=
  let s := setPins { s.pins with enc := { a := a, b := b } } s
  if s.inReset then s else judgeEncoder s

/-- ENCODER_CHANGE (R20). -/
def execEncoderChange (a b : Bool) (s : State) : Host.Outcome State Fault Refusal :=
  .next (changeEncoder a b s)

end Sys2Proof.Machine
end

