-- ==== Sys2Proof/Machine/LineEvents.lean ====
section
/-! DEFINITION. The event and mark unit (spec/08): filters, events, marks, blanking windows, records. -/

namespace Sys2Proof.Machine

/-! ## The pending mark list (R140, R141) -/

/-- A new entry put into the list: after every entry whose first cell is at or below its own (R140). -/
def insertPending (e : PendingMark) : List PendingMark → List PendingMark
  | [] => [e]
  | f :: fs => if cellLe f.first e.first then f :: insertPending e fs else e :: f :: fs

/-- The position of the entry a merge goes into (R141): the greatest last cell, nearest the tail. -/
def mergeIndex (l : List PendingMark) : Nat :=
  (l.zipIdx.foldl
    (fun (best : Option (Word32 × Nat)) e =>
      match best with
      | none => some (e.1.last, e.2)
      | some b => if cellLe b.1 e.1.last then some (e.1.last, e.2) else some b)
    none).elim 0 (·.2)

/-- The merged entry (R141). -/
def PendingMark.merge (new old : PendingMark) : PendingMark :=
  { kind := if new.consequence.moreSevere old.consequence then new.kind else old.kind
    consequence := new.consequence.worse old.consequence
    first := cellMin new.first old.first
    last := cellMax new.last old.last }

/-- A pending part joins the list, or is merged into a full one (R140, R141). -/
def addPending (e : PendingMark) (s : State) : State :=
  let l := s.emu.pending
  if l.length < Config.pendingMarks then
    setMarks (insertPending e l) s
  else
    let i := mergeIndex l
    match l[i]? with
    | none => s
    | some old =>
      let s := setMarks (insertPending (e.merge old) (l.eraseIdx i)) s
      raiseAlarm .markMerged 0 (countGlobal .markMerged s)

/-! ## Marks of an event (R138, R139) -/

/-- The window of a die for a kind of mark (5.2). -/
def DieRecord.markWindow (r : DieRecord) : MarkKind → MarkWindow
  | .weld => r.weld
  | .stop => r.stop
  | .start => r.start

/-- Cell x lies in the range of `n` cells from `first` on, modulo 2^32. -/
def inRange (first : Word32) (n : Nat) (x : Word32) : Bool := decide ((x - first).toNat < n)

/-- The cells of a ring in a range that take marks (R117). -/
def openInRange (first : Word32) (n : Nat) (c : Cell) : Bool := inRange first n c.number && c.isOpen

/-- The immediate part offered in strand t (R139): each cell of the ring in the range takes the mark; when
some cell of the range refused it, the strand's truncated part is not empty and is counted once. -/
def markImmediate (k : MarkKind) (c : Consequence) (first : Word32) (n : Nat) (t : Fin 4) (s : State) :
    State :=
  let applied := (s.lmp.rings[t]).countP fun e => openInRange first n e.2
  let s := s.modRing t (Ring.onCells (openInRange first n) (Cell.mark k c))
  if applied < n then countStrand t .markTruncated s else s

/-- A WELD, STOP or START event taken in INSPECTING places its mark (R138): the window's range, widened to
whole cells, is divided at the die cell into its immediate and its pending part. -/
def placeMark (k : MarkKind) (s : State) : State :=
  match s.lmp.geometry with
  | none => s
  | some g =>
    let w := (servingDie s).markWindow k
    let md := g.material s.pos.station + g.dieToStation
    if w.endOff < w.startOff then s
    else
      let nFirst := g.cellAt (md + w.startOff)
      let nLast := g.cellAt (md + w.endOff)
      let c := g.dieCell s.pos.station
      let immediate := (min nLast c - nFirst + 1).toNat
      let s :=
        if immediate = 0 then s
        else forEach (usedStrands s) (markImmediate k w.consequence (seqOf nFirst) immediate) s
      if c < nLast then
        addPending
          { kind := k, consequence := w.consequence, first := seqOf (max nFirst (c + 1)),
            last := seqOf nLast } s
      else s

/-! ## Blanking windows (R144) -/

/-- A blanking window opened from M over the blank length of the die in service (R144). -/
def openBlanking (s : State) : State :=
  let n := (servingDie s).entry.blankLength
  if n = 0 then s
  else
    let l := s.emu.blanking
    let l := if l.length < Config.blankingList then l else l.drop 1
    { s with emu := { s.emu with
        blanking := l ++ [{ start := s.pos.station, stop := s.pos.station + n }] } }

/-! ## Events (R133, R134, R136, R137) -/

/-- Counter of an event kind (12.1). -/
def EventKind.counter : EventKind → GlobalCounter
  | .weld => .evWeld | .stop => .evStop | .start => .evStart | .pressRunFalling => .evPressRunFalling
  | .handover => .evHandover | .saw => .evSaw

/-- The record of an event taken now (R134). -/
def eventRecordOf (k : EventKind) (s : State) : EventRecord :=
  let m := s.pos.station
  match s.lmp.geometry with
  | some g =>
    { kind := k, station := m, stationCell := seqOf (g.stationCell m), dieCell := seqOf (g.dieCell m),
      sawCell := seqOf (g.sawCell m) }
  | none => { kind := k, station := m, stationCell := 0, dieCell := 0, sawCell := 0 }

/-- An event record offered to queue B (R134). -/
def offerEvent (r : EventRecord) (s : State) : State :=
  if s.egs.b.length < Config.queueB then
    { s with egs := { s.egs with b := s.egs.b ++ [makeFrame s none (.event r)] } }
  else countGlobal .eventRecordsDropped s

/-- Steps 1 and 2 of a push start (R136): a staged die goes into service, or the curves are taken. -/
def pushStart (s : State) : State :=
  match stagedSlot s with
  | some k => changeDie k s
  | none => takeCurves s

/-- The work of an event in INSPECTING (R133). -/
def eventWork (k : EventKind) (s : State) : State :=
  match k with
  | .weld => placeMark .weld s
  | .stop => placeMark .stop s
  | .start => openBlanking (placeMark .start (pushStart s))
  | .pressRunFalling => s
  | .handover => openBlanking s
  | .saw => takeCut s.pos.station s

/-- An event taken at the EMU (R133): counted, worked as the service state allows, and its record offered. -/
def takeEvent (k : EventKind) (s : State) : State :=
  let s := countGlobal k.counter s
  let s := if inspecting s then eventWork k s else s
  offerEvent (eventRecordOf k s) s

/-! ## Filters (R132) -/

/-- Configuration index of an event line (11.4). -/
def lineIndex : EventLine → Fin 4
  | .billet => 0 | .pressRun => 1 | .handover => 2 | .saw => 3

/-- The event line of a configuration index (11.4). -/
def lineAt (i : Fin 4) : EventLine :=
  match i with
  | 0 => .billet
  | 1 => .pressRun
  | 2 => .handover
  | 3 => .saw

/-- The raw level of a line (8.1). -/
def Pins.level (p : Pins) : EventLine → Bool
  | .billet => p.billet | .pressRun => p.pressRun | .handover => p.handover | .saw => p.saw

/-- The pins with a line at a new raw level. -/
def Pins.setLevel (p : Pins) (l : EventLine) (v : Bool) : Pins :=
  match l with
  | .billet => { p with billet := v }
  | .pressRun => { p with pressRun := v }
  | .handover => { p with handover := v }
  | .saw => { p with saw := v }

/-- The event that an edge of a line to a level is (8.1); the other edges are no events. -/
def edgeEvent : EventLine → Bool → Option EventKind
  | .billet, true => some .weld
  | .pressRun, true => some .start
  | .pressRun, false => some .pressRunFalling
  | .handover, true => some .handover
  | .saw, true => some .saw
  | _, false => none

/-- Line l's filter changed. -/
def modLine (l : EventLine) (f : LineFilter → LineFilter) (s : State) : State :=
  { s with emu := { s.emu with lines := upd s.emu.lines (lineIndex l) f } }

/-- The filtered level of line l changes: an edge is taken (R132). -/
def takeEdge (l : EventLine) (s : State) : State :=
  let level := !(s.emu.lines[lineIndex l]).level
  let s := modLine l (fun x => { x with level := level, candidate := none }) s
  match edgeEvent l level with
  | some k => takeEvent k s
  | none => s

/-- The candidate of line l, once it has lasted for its filter time, gives an edge (R132). -/
def settleLine (l : EventLine) (s : State) : State :=
  match (s.emu.lines[lineIndex l]).candidate with
  | some c => if c.start + c.time ≤ s.now then takeEdge l s else s
  | none => s

/-- FILTER_TIME_EXPIRY (R132). -/
def execFilterTimeExpiry (line : EventLine) (s : State) : Host.Outcome State Fault Refusal :=
  .next (settleLine line s)

/-- The raw level of line l, as it now stands, against its filter: the level opposite to the filtered level
becomes the candidate, and a return to the filtered level cancels it (R132). -/
def followLine (l : EventLine) (s : State) : State :=
  modLine l (fun x =>
    if s.pins.level l = x.level then { x with candidate := none }
    else
      match x.candidate with
      | some _ => x
      | none => { x with candidate := some { start := s.now, time := x.time } }) s

/-- The raw level of line l changes (R132, log 30): a candidate that has already lasted for its filter time
gives its edge first; with a filter time of 0 the change is an edge at once. While a reset is in progress
no edge is taken. -/
def changeLine (l : EventLine) (level : Bool) (s : State) : State :=
  if s.inReset then setPins (s.pins.setLevel l level) s
  else
    let s := settleLine l s
    settleLine l (followLine l (setPins (s.pins.setLevel l level) s))

/-- EVENT_LINE_CHANGE (R132). -/
def execEventLineChange (line : EventLine) (level : Bool) (s : State) :
    Host.Outcome State Fault Refusal :=
  .next (changeLine line level s)

/-! ## Stillness (R135) -/

/-- The stillness timer's expiry, once reached: the timer becomes DISARMED at M and a STOP event is taken. -/
def expireStillness (s : State) : State :=
  match s.emu.stillness with
  | .running e =>
    if e ≤ s.now then takeEvent .stop (setStillness (.disarmed s.pos.station) s) else s
  | _ => s

/-- STILLNESS_EXPIRY (R135). -/
def execStillnessExpiry (s : State) : Host.Outcome State Fault Refusal := .next (expireStillness s)

end Sys2Proof.Machine
end

