-- ==== Sys2Proof/Machine/Clock.lean ====
section
/-! DEFINITION. The passing of time (log 1): what the step does on an empty queue, and what has come due, as
commands (log 2). -/

namespace Sys2Proof.Machine

/-- The numbers of the instances below n for which p holds. -/
def dueAmong {n : Nat} (p : Fin n → Bool) : List (Fin n) := (List.finRange n).filter p

/-- A time, where there is one, has been reached. -/
def reached (now : Nat) (t : Option Nat) : Bool := t.any fun x => decide (x ≤ now)

/-- Port p's first scheduled start time has been reached (R32). -/
def pulseDue (s : State) (p : Fin 8) : Bool := reached s.now (s.trg.outputs[p]).schedule.head?

/-- Port p's output is to be RELEASED (R32). -/
def releaseDue (s : State) (p : Fin 8) : Bool := reached s.now (s.trg.outputs[p]).release

/-- Slot i is COLLECTING at or past its deadline (R48). -/
def deadlineDue (s : State) (i : Fin 16) : Bool :=
  slotCollecting s i && decide ((s.sau.slots[i]).deadline ≤ s.now)

/-- Strand t is FRESH at or past its expiry (R64). -/
def tempDue (s : State) (t : Fin 4) : Bool :=
  match s.tmu.strands[t] with
  | .fresh _ _ expiry => decide (expiry ≤ s.now)
  | _ => false

/-- The stillness timer has expired (R135). -/
def stillnessDue (s : State) : Bool :=
  match s.emu.stillness with
  | .running e => decide (e ≤ s.now)
  | _ => false

/-- Line l's candidate has lasted for its filter time (R132). -/
def filterDue (s : State) (l : EventLine) : Bool :=
  (s.emu.lines[lineIndex l]).candidate.any fun c => decide (c.start + c.time ≤ s.now)

/-- Strand t's gate is to be RELEASED (R156). -/
def gateDue (s : State) (t : Fin 4) : Bool := reached s.now (s.pcu.strands[t]).gate

/-- The period timer has expired in TIME mode (R29). -/
def periodDue (s : State) : Bool := reached s.now s.trg.timer && trgArmed s && s.trg.mode == .time

/-- A deferred trigger's Tmin has passed (R27, R29). -/
def tminDue (s : State) : Bool := s.trg.deferred && tminPassed s && s.trg.mode != .off

/-- The soft reset of a RESET whose response has been sent is due (R179). -/
def softResetDue (s : State) : Bool := s.mga.reset == .due && !s.inReset

/-- The commands that are due, in the order of log 2. None of them is due any more once it has been taken. -/
def dueCommands (s : State) : List Instr :=
  (if softResetDue s then [.softReset] else []) ++
  ((dueAmong fun i => filterDue s (lineAt i)).map fun i => .filterTimeExpiry (lineAt i)) ++
  (if stillnessDue s then [.stillnessExpiry] else []) ++
  ((dueAmong (tempDue s)).map fun t => .tempExpiry t.val) ++
  ((dueAmong (deadlineDue s)).map fun i => .slotDeadlineExpiry i.val) ++
  (if tminDue s then [.tminExpiry] else []) ++
  (if periodDue s then [.periodTimerExpiry] else []) ++
  ((dueAmong (pulseDue s)).map fun p => .pulseStart p.val) ++
  ((dueAmong (releaseDue s)).map fun p => .pulseRelease p.val) ++
  ((dueAmong (gateDue s)).map fun t => .gateRelease t.val)

/-- What is due waits as commands. -/
def queueDue (s : State) : State := { s with pending := s.pending ++ dueCommands s }

/-- What is due now is queued before time passes, so that a start time reached at the firing itself is not late
(R31, R32); with nothing due one µs passes, and what is then due is queued (log 1). -/
def tick (s : State) : State :=
  if (dueCommands s).isEmpty then queueDue { s with now := s.now + 1 } else queueDue s

end Sys2Proof.Machine
end

