-- ==== Sys2Proof/Machine/Reports.lean ====
section
/-! DEFINITION. The byte layouts of the frames the part makes (spec/01 1.7, R9, R19). -/

namespace Sys2Proof.Machine

/-- The six bytes of an address, first byte first. -/
def addrBytes (a : Address) : List Byte := beNat 6 a.toNat

/-- The four bytes of a cell sequence number, a piece number or a die tag. -/
def wordBytes (w : Word32) : List Byte := beNat 4 w.toNat

/-- 1 for yes and 0 for no (R173). -/
def boolByte (b : Bool) : Byte := if b then 1 else 0

/-- Value of a status (R172). -/
def Status.code : Status → Byte
  | .ok => 0x00 | .badFormat => 0x01 | .badCommand => 0x02 | .badValue => 0x03 | .range => 0x04
  | .state => 0x05 | .inUse => 0x06 | .notBound => 0x07

/-- Kind byte of an alarm (1.7). -/
def AlarmKind.code : AlarmKind → Byte
  | .headFenced => 0x01 | .headRestored => 0x02 | .runoutReverse => 0x03 | .tempStale => 0x04
  | .markMerged => 0x05 | .sawOverrun => 0x06 | .pieceBacklog => 0x07 | .pieceLost => 0x08
  | .dieChanged => 0x09

/-- Kind byte of an event (1.7). -/
def EventKind.code : EventKind → Byte
  | .weld => 0x01 | .stop => 0x02 | .start => 0x03 | .pressRunFalling => 0x04 | .handover => 0x05
  | .saw => 0x06

/-- Band byte (1.7). -/
def Band.code : Band → Byte
  | .good => 0x00 | .warn => 0x01 | .reject => 0x02 | .nodata => 0x03

/-- Verdict byte of a PIECE report (1.7). -/
def PieceVerdict.code : PieceVerdict → Byte
  | .accept => 0x01 | .trim => 0x02 | .hold => 0x03 | .scrap => 0x04 | .aborted => 0x05

/-- Class byte of a zone in a PIECE report (1.7). -/
def ZoneClass.code : ZoneClass → Byte
  | .hold => 0x01 | .scrap => 0x02

/-- A zone of a PIECE report, 12 bytes of fields (1.7). -/
def zoneReport (z : Zone) : List Byte :=
  beNat 4 z.offset ++ beNat 4 z.length ++ [z.cls.code] ++ beNat 2 z.reasons.toNat ++
    [match z.lead with
     | some g => BitVec.ofNat 8 g
     | none => 0xFF]

/-- Body of a PIECE report (1.7). -/
def pieceBody (c : CompletedPiece) : List Byte :=
  [BitVec.ofNat 8 c.strand.val, c.verdict.code, boolByte c.piece.overflow,
    BitVec.ofNat 8 c.piece.zones.length] ++
  wordBytes c.number ++ wordBytes c.piece.first ++ beNat 4 c.piece.cells ++
  beNat 4 c.piece.good ++ beNat 4 c.piece.warn ++ beNat 4 c.piece.hold ++ beNat 4 c.piece.scrap ++
  beNat 2 c.piece.reasons.toNat ++ (c.piece.zones.map zoneReport).flatten

/-- Body of an EVENT report (1.7). -/
def eventBody (e : EventRecord) : List Byte :=
  [e.kind.code] ++ beNat 6 e.station ++ wordBytes e.stationCell ++ wordBytes e.dieCell ++
    wordBytes e.sawCell

/-- An entry of a SECTION report (1.7). -/
def sectionEntry (g : GaugeResult) : List Byte :=
  [BitVec.ofNat 8 g.gauge, g.band.code] ++ beInt 4 g.deviation ++ [boolByte g.short]

/-- Body of a SECTION report (1.7). -/
def sectionBody (r : SectionRecord) : List Byte :=
  beNat 2 r.seq.toNat ++
  [BitVec.ofNat 8 r.strand.val, boolByte r.stale + (if r.byDefault then 2 else 0)] ++
  wordBytes r.cell ++ beNat 2 r.temp ++ beNat 2 r.shrink ++ [BitVec.ofNat 8 r.entries.length] ++
  (r.entries.map sectionEntry).flatten

/-- Body of an ALARM report (1.7). -/
def alarmBody (a : AlarmReport) : List Byte :=
  [a.kind.code, BitVec.ofNat 8 a.subject] ++ beNat 2 a.raised.toNat

/-- The bytes of a frame of the part's protocol (R19): Ethernet header, common header of version 1 with a
length that counts from the common header to the end of the body, body, and padding to 60 bytes. -/
def protocolBytes (dest source : Address) (frameType : BitVec 16) (kind : Byte) (body : List Byte) :
    List Byte :=
  padTo 60 (addrBytes dest ++ addrBytes source ++ beNat 2 frameType.toNat ++ [0x01, kind] ++
    beNat 2 (4 + body.length) ++ body)

/-- Kind and body of what a frame says (1.7). -/
def contentBody : Content → Byte × List Byte
  | .response tag command status data =>
    (0x05, beNat 2 tag.toNat ++ [command, status.code] ++ data)
  | .piece c => (0x06, 0x01 :: pieceBody c)
  | .event e => (0x06, 0x02 :: eventBody e)
  | .sectionRecord r => (0x06, 0x03 :: sectionBody r)
  | .alarm a => (0x06, 0x04 :: alarmBody a)

/-- The bytes of a frame of queue A, B or C as sent to the given destination (R19, R167). -/
def outBytes (reportDest : Address) (f : OutFrame) : List Byte :=
  protocolBytes (f.dest.getD reportDest) f.source f.frameType (contentBody f.content).1
    (contentBody f.content).2

/-- The HOLD frame of a notice (R13): hold flag 1 for HOLD, 0 for RESUME. -/
def noticeBytes (dest source : Address) (frameType : BitVec 16) (n : Notice) : List Byte :=
  protocolBytes dest source frameType 0x03 [if n = .hold then 1 else 0]

/-- The twelve bytes of a position stamp (1.7). -/
def stampBytes (s : Stamp) : List Byte :=
  [BitVec.ofNat 8 s.strand.val,
    boolByte s.mapValid + (if s.inspecting then 2 else 0) + (if s.headStamped then 4 else 0)] ++
  beNat 2 s.residue ++ wordBytes s.cell ++ wordBytes s.station

/-- The bytes of a FORWARD entry as sent (R9): addresses replaced, padding left out, stamp appended after
the last byte given by the length field. -/
def forwardBytes (dest source : Address) (s : Stamp) (bs : List Byte) : List Byte :=
  addrBytes dest ++ addrBytes source ++ field bs 12 (2 + natAt bs 16 2) ++ stampBytes s

end Sys2Proof.Machine
end

