-- ==== Sys2Proof/Machine/Requests.lean ====
section
/-! DEFINITION. The management agent (spec/11): the taking of a request, its judgement against the binding,
the closing of the table window, its execution and its response. -/

namespace Sys2Proof.Machine

/-! ## Responses -/

/-- What an execution answers: a status and the response data (R172, R173). -/
structure Reply where
  status : Status
  data : List Byte
  deriving DecidableEq, Repr

/-- The execution of a command: its reply, and the state it leaves. -/
abbrev Execution := Request → State → Reply × State

/-- A request refused with a status: nothing changes and the response carries no data (R173). -/
def refuse (st : Status) (s : State) : Reply × State := ({ status := st, data := [] }, s)

/-- A request executed as requested. -/
def answer (data : List Byte) (s : State) : Reply × State := ({ status := .ok, data := data }, s)

/-- The response of a request joins queue A in the place reserved for it (R161, R173). -/
def respond (r : Request) (reply : Reply) (s : State) : State :=
  { s with egs := { s.egs with
      a := s.egs.a ++ [makeFrame s (some r.source) (.response r.tag r.command reply.status reply.data)]
      reserved := false } }

/-! ## Binding (R170) -/

/-- Under FIRST with no bound address, the source of a taken request becomes the bound address (R170). -/
def bindFirst (source : Address) (s : State) : State :=
  match s.mga.mode, s.mga.bound with
  | .first, none => { s with mga := { s.mga with bound := some source } }
  | _, _ => s

/-- The binding lets a source's request be executed (R170). -/
def bindingPasses (source : Address) (s : State) : Bool :=
  match s.mga.mode with
  | .openMode => true
  | .first => s.mga.bound == some source
  | .fixed => s.mga.fixed == source

/-! ## Taking a request (R161, R171–R173, R179) -/

/-- The management agent takes a request now (R171): no RESET waits, and queue A's frames plus any reserved
place come to less than 16; and no reset is in progress. -/
def mayTake (s : State) : Bool :=
  !s.inReset && s.mga.reset == .none && decide (queueALoad s < Config.queueA)

/-- The commands that leave an open table window open: GET_CONFIG and TABLE_DATA (R79, R173). -/
def keepsWindow (command : Byte) : Bool := command == 3 || command == 7

/-- A taken request judged in the order of R173 after its binding: window, size, then the command's own
execution. -/
def judgeRequest (sizeOk : Nat → Bool) (run : Execution) (r : Request) (s : State) : Reply × State :=
  if bindingPasses r.source s then
    let s := if keepsWindow r.command then s else closeWindow s
    if sizeOk r.args.length then run r s else refuse .badFormat s
  else refuse .notBound s

/-- A request taken from the head of the input queue, which is left with the rest: a place of queue A is
reserved until its response joins (R161). -/
def runRequest (sizeOk : Nat → Bool) (run : Execution) (r : Request) (rest : List Request) (s : State) :
    State :=
  let s := { s with mga := { s.mga with input := rest }, egs := { s.egs with reserved := true } }
  let done := judgeRequest sizeOk run r (bindFirst r.source s)
  respond r done.1 done.2

/-- The request at the head of the input queue is taken and executed whole, when it is one of the row's
requests and the agent takes requests now; otherwise the event cannot come about (log 3, log 5). -/
def takeRequest (selects : Request → Bool) (sizeOk : Nat → Bool) (run : Execution) (s : State) : State :=
  match s.mga.input with
  | [] => s
  | r :: rest => if mayTake s && selects r then runRequest sizeOk run r rest s else s

/-- The requests of a command number. -/
def isCommand (n : Byte) (r : Request) : Bool := r.command == n

/-- An argument size of exactly n bytes (11.3). -/
def sizeIs (n : Nat) (len : Nat) : Bool := len == n

/-- An argument size of k parts of n bytes, k from lo to hi (11.3). -/
def sizeOfParts (n lo hi : Nat) (len : Nat) : Bool :=
  len % n == 0 && decide (lo ≤ len / n) && decide (len / n ≤ hi)

/-- BAD_COMMAND (R173): a command number that is not one of the sixteen, whatever its arguments. -/
def execBadCommand (s : State) : Host.Outcome State Fault Refusal :=
  .next (takeRequest (fun r => r.command == 0 || decide (16 < r.command.toNat)) (fun _ => true)
    (fun _ s => refuse .badCommand s) s)

/-! ## Field encodings (R173, R174) -/

/-- A field of one byte. -/
def byteOf (n : Nat) : List Byte := beNat 1 n

/-- A field or part that may be absent, preceded by its presence byte (R174). -/
def optional {α : Type} (f : α → List Byte) : Option α → List Byte
  | none => [0]
  | some x => 1 :: f x

/-- A part that repeats, preceded by its one-byte count (R174). -/
def counted {α : Type} (f : α → List Byte) (l : List α) : List Byte :=
  byteOf l.length ++ (l.map f).flatten

/-- The position of a value in the listed set of its chapter (R173); every value held is listed. -/
def positionIn {α : Type} [DecidableEq α] (l : List α) (x : α) : Nat := l.idxOf x

/-- The value at a position of a listed set, if the position names one (R173, R175). -/
def codeIn {α : Type} (l : List α) (v : Int) : Option α := if 0 ≤ v then l[v.toNat]? else none

/-- A flag whose values are listed SET first and CLEAR second (R173, log 20). -/
def flagCode (b : Bool) : Nat := if b then 0 else 1

/-- The listed sets of the chapters, in their order (1.1, 2.1, 2.2, 3.2, 4.4, 5.1–5.4, 7.3, 9.1, 11). -/
def roleList : List Role := [.head, .pyro, .off]
@[inherit_doc roleList] def admissionList : List AdmissionMode := [.any, .matchId, .stamp]
@[inherit_doc roleList] def dispositionList : List Disposition := [.drop, .uplink]
@[inherit_doc roleList] def forwardList : List ForwardMode := [.off, .all, .decimated]
@[inherit_doc roleList] def holdList : List HoldState := [.flowing, .holding]
@[inherit_doc roleList] def noticeList : List Notice := [.hold, .resume]
@[inherit_doc roleList] def senseList : List Sense := [.normal, .inverted]
@[inherit_doc roleList] def triggerList : List TriggerMode := [.off, .pitch, .time]
@[inherit_doc roleList] def headStateList : List HeadState := [.off, .listen, .measure, .fenced]
@[inherit_doc roleList] def dieStateList : List DieState :=
  [.empty, .loading, .ready, .faulty, .staged, .inService]
@[inherit_doc roleList] def serviceList : List Service := [.unconfigured, .idle, .inspecting]
@[inherit_doc roleList] def consequenceList : List Consequence := [.scrap, .hold, .note]
@[inherit_doc roleList] def kindList : List GaugeKind := [.span, .spread]
@[inherit_doc roleList] def axisList : List Axis := [.x, .y]
@[inherit_doc roleList] def pickList : List Pick := [.min, .max, .mean]
@[inherit_doc roleList] def cellStateList : List CellState := [.unseen, .approach, .live, .closed]
@[inherit_doc roleList] def cellVerdictList : List CellVerdict := [.good, .warn, .hold, .scrap]
@[inherit_doc roleList] def zoneClassList : List ZoneClass := [.hold, .scrap]
@[inherit_doc roleList] def pieceVerdictList : List PieceVerdict :=
  [.accept, .trim, .hold, .scrap, .aborted]
@[inherit_doc roleList] def schedList : List SchedMode := [.strict, .quota]
@[inherit_doc roleList] def bindingList : List BindingMode := [.openMode, .first, .fixed]

end Sys2Proof.Machine
end

