-- ==== Sys2Proof/Machine/Readings.lean ====
section
/-! DEFINITION. The values of configuration items and of the read-only items (spec/11 11.4, R36, R67, R92,
R129), as the bytes a result carries. -/

namespace Sys2Proof.Machine

/-- A position of a listed set as one byte (R173). -/
def codeByte {α : Type} [DecidableEq α] (l : List α) (x : α) : List Byte := byteOf (positionIn l x)

/-- The fields of a read-only item that fit in 8 bytes, from the most significant byte on (R174). -/
def leftInValue (bs : List Byte) : List Byte := padTo 8 bs

/-! ## Settings -/

/-- The number the value of a setting carries (11.4); none for a number or an index that is no setting's. -/
def portSetting (item : Nat) (p : Fin 8) (s : State) : Option Nat :=
  let port := s.ports[p]
  match item with
  | 1 => some (positionIn roleList port.role)
  | 2 => some (positionIn admissionList port.admission)
  | 3 => some port.defaultHead.val
  | 4 => some (positionIn dispositionList port.nonScan)
  | 5 => some (positionIn forwardList port.forwardMode)
  | 6 => some port.decimation
  | 7 => some port.reserve
  | 8 => some port.high
  | 9 => some port.low
  | 10 => some (s.trg.outputs[p]).phaseDelay
  | _ => none

@[inherit_doc portSetting]
def partSetting (item : Nat) (s : State) : Option Nat :=
  match item with
  | 11 => some (s.mirror.elim 8 (·.val))
  | 12 => some s.pool.evictionLevel
  | 13 => some s.upl.station.toNat
  | 14 => some s.upl.recorder.toNat
  | 15 => some s.upl.report.toNat
  | 16 => some s.upl.frameType.toNat
  | 17 => some (positionIn senseList s.pos.sense)
  | 18 => some s.pos.scale
  | 19 => some s.pos.reverseLimit
  | 20 => some (positionIn triggerList s.trg.mode)
  | 21 => some s.trg.pitch
  | 22 => some s.trg.tmin
  | 23 => some s.trg.period
  | 24 => some s.sau.timeout
  | 25 => some s.sau.fenceLimit
  | 26 => some s.sau.restoreCount
  | 27 => some s.tmu.holdTime
  | 29 => some s.emu.stillTime
  | 30 => some (boolByte s.emu.proofEnable).toNat
  | 31 => some s.emu.proofCompare.toNat
  | 32 => some s.emu.proofMask.toNat
  | 33 => some s.emu.proofStrands.toNat
  | 34 => some s.pcu.holdTime
  | 35 => some (positionIn schedList s.egs.mode)
  | 37 => some (positionIn bindingList s.mga.mode)
  | 38 => some s.mga.fixed.toNat
  | _ => none

/-- The value of a head filter: enable in the next to lowest byte, head id in the lowest (11.4). -/
def filterSetting (f : HeadFilter) : Nat := (boolByte f.enabled).toNat * 256 + f.head.val

/-- The value of setting `item` at an index, if there is one (11.4). -/
def settingValue (item index : Nat) (s : State) : Option Nat :=
  if item ≤ 10 then (toFin 8 index).bind fun p => portSetting item p s
  else if item = 28 then (toFin 4 index).map fun l => (s.emu.lines[l]).time
  else if item = 36 then (toFin 4 index).map fun q => s.egs.quotas[q]
  else if item = 39 then (toFin 2 index).map fun f => filterSetting s.ctb.filters[f]
  else if index = 0 then partSetting item s
  else none

/-! ## Running state -/

/-- Item 64: M, S and the reverse latch (R36). -/
def positionReading (s : State) : List Byte :=
  beNat 6 s.pos.station ++ beInt 5 s.pos.acc ++ byteOf (flagCode s.pos.latch)

/-- Item 65: G, scan sequence number, generator state (STOPPED, ARMED), deferred trigger (R36). -/
def triggerReading (s : State) : List Byte :=
  beNat 6 s.trg.grid ++ beNat 2 s.trg.seq.toNat ++ [boolByte (trgArmed s), boolByte s.trg.deferred]

/-- Item 66: use count, hold state, pending notice or none, learned head address or none, free shared blocks
(R10, R13); a present notice is coded HOLD 0 and RESUME 1 (log 21). -/
def portReading (p : Fin 8) (s : State) : List Byte :=
  let port := s.ports[p]
  beNat 2 (useCount s.pool.held p) ++ codeByte holdList port.hold ++
    optional (codeByte noticeList) port.notice ++ optional addrBytes port.learned ++ beNat 2 (freeShared s)

/-- An age in µs given in ms (R67): whole ms, and where it is no whole number the free value of log 12 says
whether it is given as the next higher; saturated at 65 535. -/
def ageInMs (age : Nat) : Nat :=
  min 65535 (age / 1000 + if age % 1000 ≠ 0 ∧ Config.ageRoundsUp age = true then 1 else 0)

/-- Item 67: status, temperature and age of a strand (R67). -/
def tempReading (t : Fin 4) (s : State) : List Byte :=
  match s.tmu.strands[t] with
  | .none => byteOf 0 ++ beNat 2 0 ++ beNat 2 0
  | .fresh temp taken _ => byteOf 1 ++ beNat 2 temp ++ beNat 2 (ageInMs (s.now - taken))
  | .stale temp taken => byteOf 2 ++ beNat 2 temp ++ beNat 2 (ageInMs (s.now - taken))

/-- Part code of a die part, and its strand (R174). -/
def DiePart.codes : DiePart → Nat × Nat
  | .header => (1, 0)
  | .marks => (2, 0)
  | .windows t => (3, t.val)
  | .gauges t => (4, t.val)

/-- A target as the table, number, part and strand of TABLE_OPEN (R174, log 21). -/
def Target.bytes : Target → List Byte
  | .heads => [1, 0, 0, 0]
  | .curve n => [2, BitVec.ofNat 8 n.val, 0, 0]
  | .die k part =>
    [3, BitVec.ofNat 8 k.val, BitVec.ofNat 8 part.codes.1, BitVec.ofNat 8 part.codes.2]

/-- Whether the window is open, and if so its target, pointer, last entry and overrun count (R92): the byte that
tells whether it is open is also the presence byte of the part that follows (R174): the model's choice, one
byte and not two (log 21). -/
def TableWindow.bytes (w : TableWindow) : List Byte :=
  optional (fun t => t.bytes ++ byteOf w.pointer ++ byteOf w.last ++ beNat 2 w.overrun) w.target

/-- A slot's state and fault number (R92). -/
def slotReading (d : DieSlot) : List Byte := codeByte dieStateList d.state ++ optional byteOf d.faultNumber

/-- Item 68, the library status (R92). -/
def libraryReading (s : State) : List Byte :=
  codeByte serviceList s.dlb.service ++ optional (fun k => byteOf k.val) (servingSlot s) ++
    optional (fun k => byteOf k.val) (stagedSlot s) ++ (s.dlb.slots.toList.map slotReading).flatten ++
    s.mga.window.bytes

/-- The number of ring slots in each cell state, and the number of empty ones (R129). -/
def ringReading (r : Ring) : List Byte :=
  (cellStateList.map fun st => beNat 2 (r.countP fun e => e.2.state = st)).flatten ++
    beNat 2 (Config.ringSlots - r.length)

/-- Item 69, the map status (R129); without a geometry the remaining fields read as 0. -/
def mapReading (s : State) : List Byte :=
  match s.lmp.geometry with
  | none => List.replicate 81 0
  | some g =>
    let m := s.pos.station
    [1] ++ beNat 2 g.cellLength ++ beNat 3 g.dieToStation ++ beNat 3 g.stationToSaw ++
      beNat 2 (approachCells g.cellLength g.dieToStation) ++
      beNat 2 (liveCells g.cellLength g.stationToSaw) ++
      beInt 2 (historyCells g.cellLength g.dieToStation g.stationToSaw) ++
      beInt 7 g.origin ++ beInt 7 (g.material m) ++
      wordBytes (seqOf (g.dieCell m)) ++ wordBytes (seqOf (g.stationCell m)) ++
      wordBytes (seqOf (g.sawCell m)) ++ (s.lmp.rings.toList.map ringReading).flatten

/-- Item 71: binding mode, and bound address or none (R170). -/
def bindingReading (s : State) : List Byte :=
  codeByte bindingList s.mga.mode ++ optional addrBytes s.mga.bound

/-- What a read-only item returns at an index: its value of 8 bytes, or a result of its own length (11.4). -/
def runningReading (item index : Nat) (s : State) : Option (List Byte) :=
  match item with
  | 64 => if index = 0 then some (positionReading s) else none
  | 65 => if index = 0 then some (triggerReading s) else none
  | 66 => (toFin 8 index).map fun p => portReading p s
  | 67 => (toFin 4 index).map fun t => leftInValue (tempReading t s)
  | 68 => if index = 0 then some (libraryReading s) else none
  | 69 => if index = 0 then some (mapReading s) else none
  | 70 => if index = 0 then some (leftInValue (beNat 2 s.mga.alarms.toNat)) else none
  | 71 => if index = 0 then some (leftInValue (bindingReading s)) else none
  | _ => none

/-- The value an item returns (11.4), none for an unknown item or an index out of range. -/
def itemReading (item index : Nat) (s : State) : Option (List Byte) :=
  if item < 64 then (settingValue item index s).map (beNat 8) else runningReading item index s

end Sys2Proof.Machine
end

