-- ==== Sys2Proof/Machine/Commands.lean ====
section
/-! DEFINITION. The commands of spec/11 11.3 that act on one block or read it: IDENTIFY, SET_GEOMETRY,
SET_HEAD_STATE, SELECT_DIE, DEACTIVATE, FLUSH, READ_CELLS, READ_PIECES, CLEAR_ALARMS, RESET. -/

namespace Sys2Proof.Machine

/-! ## Identity (R178) -/

/-- IDENTIFY executed (R178). -/
def identify : Execution := fun _ s =>
  answer (beNat 2 Config.partCode ++ byteOf Config.revision ++ byteOf s.upl.straps.toNat ++
    addrBytes s.upl.station ++ bindingReading s ++ codeByte serviceList s.dlb.service) s

/-- IDENTIFY (R178). -/
def execIdentify (s : State) : Host.Outcome State Fault Refusal :=
  .next (takeRequest (isCommand 1) (sizeIs 0) identify s)

/-! ## Geometry (R85, R112, R113) -/

/-- The three distances lie in their ranges (7.1). -/
def geometryInRange (cellLength dieToStation stationToSaw : Nat) : Bool :=
  decide (20 ≤ cellLength) && decide (cellLength ≤ 5000) && decide (dieToStation ≤ 2000000) &&
    decide (stationToSaw ≤ 500000)

/-- The derived partition as a RANGE response gives it (R112). -/
def partitionBytes (cellLength dieToStation stationToSaw : Nat) : List Byte :=
  beNat 3 (approachCells cellLength dieToStation) ++ beNat 2 (liveCells cellLength stationToSaw) ++
    beInt 3 (historyCells cellLength dieToStation stationToSaw)

/-- The geometry stored, the map flushed with no die in service, and the part IDLE (R113, R85). The flush sets
the map origin. -/
def storeGeometry (cellLength dieToStation stationToSaw : Nat) (s : State) : State :=
  let g : Geometry :=
    { cellLength := cellLength, dieToStation := dieToStation, stationToSaw := stationToSaw,
      origin := (s.pos.station : Int) - stationToSaw }
  setService .idle (flushMap { s with lmp := { s.lmp with geometry := some g } })

/-- SET_GEOMETRY executed (R112). -/
def setGeometry : Execution := fun r s =>
  let l := natAt r.args 0 2
  let ds := natAt r.args 2 4
  let ss := natAt r.args 6 4
  if inspecting s then refuse .state s
  else if geometryInRange l ds ss then
    if historyCells l ds ss < 64 then ({ status := .range, data := partitionBytes l ds ss }, s)
    else answer [] (storeGeometry l ds ss s)
  else refuse .range s

/-- SET_GEOMETRY (R112). -/
def execSetGeometry (s : State) : Host.Outcome State Fault Refusal :=
  .next (takeRequest (isCommand 4) (sizeIs 10) setGeometry s)

/-! ## Head state (R43) -/

/-- The states a request can name (R43). -/
def HeadState.nameable : HeadState → Bool
  | .fenced => false
  | _ => true

/-- Head h set to a state, its runs 0, and the HEAD_FENCED test made when it was FENCED (R43, R50). -/
def putHeadState (h : Fin 16) (st : HeadState) (s : State) : State :=
  let wasFenced := decide ((s.heads[h]).state = .fenced)
  let s := s.modHead h fun r => { r with state := st, missRun := 0, restoreRun := 0 }
  if wasFenced then fencedClearTest s else s

/-- SET_HEAD_STATE executed (R43). -/
def setHeadState : Execution := fun r s =>
  match toFin 16 (natAt r.args 0 1), codeIn headStateList (natAt r.args 1 1) with
  | some h, some st => if st.nameable then answer [] (putHeadState h st s) else refuse .badValue s
  | _, _ => refuse .badValue s

/-- SET_HEAD_STATE (R43). -/
def execSetHeadState (s : State) : Host.Outcome State Fault Refusal :=
  .next (takeRequest (isCommand 5) (sizeIs 2) setHeadState s)

/-! ## Dies (R86–R90) -/

/-- The response of a taken SELECT_DIE (R86): slot, outcome (IN_SERVICE 0, STAGED 1), die tag and name. -/
def selectionBytes (k : Fin 8) (outcome : Nat) (s : State) : List Byte :=
  let e := (s.dlb.slots[k]).record.entry
  byteOf k.val ++ byteOf outcome ++ wordBytes e.tag ++ e.name.toList

/-- SELECT_DIE executed (R86–R88). -/
def selectDie : Execution := fun r s =>
  match toFin 8 (natAt r.args 0 1) with
  | none => refuse .badValue s
  | some k =>
    match s.dlb.service, (s.dlb.slots[k]).state with
    | .idle, .ready => answer (selectionBytes k 0 s) (startInspection k s)
    | .inspecting, .ready => answer (selectionBytes k 1 s) (stageDie k s)
    | _, _ => refuse .state s

/-- SELECT_DIE (R86). -/
def execSelectDie (s : State) : Host.Outcome State Fault Refusal :=
  .next (takeRequest (isCommand 9) (sizeIs 1) selectDie s)

/-- DEACTIVATE executed (R90): the response gives the slot that was in service. -/
def deactivate : Execution := fun _ s =>
  if inspecting s then
    answer ((servingSlot s).elim [] fun k => byteOf k.val) (endInspection s)
  else refuse .state s

/-- DEACTIVATE (R90). -/
def execDeactivate (s : State) : Host.Outcome State Fault Refusal :=
  .next (takeRequest (isCommand 10) (sizeIs 0) deactivate s)

/-- FLUSH executed (R127). -/
def flushCommand : Execution := fun _ s =>
  if s.dlb.service = .unconfigured then refuse .state s else answer [] (flushMap s)

/-- FLUSH (R127). -/
def execFlush (s : State) : Host.Outcome State Fault Refusal :=
  .next (takeRequest (isCommand 11) (sizeIs 0) flushCommand s)

/-! ## Cells (R128) -/

/-- One kind of a mark set: 0, or 1 plus the position of its consequence (R174). -/
def markByte (c : Option Consequence) : Byte :=
  c.elim 0 fun x => BitVec.ofNat 8 (1 + positionIn consequenceList x)

/-- The mark set's four bytes, WELD, STOP, START, PROOF (R174). -/
def markBytes (m : MarkSet) : List Byte := [markByte m.weld, markByte m.stop, markByte m.start, markByte m.proof]

/-- The verdict group of a closed cell (R128, 7.3), behind the one presence byte that `cellBytes` gives it; the
lead gauge, which may be none, has a presence byte of its own in it (R174). One byte for the three fields is the
model's choice (log 21). -/
def resultBytes (r : CellResult) : List Byte :=
  codeByte cellVerdictList r.verdict ++ beNat 2 r.reasons.toNat ++ optional byteOf r.lead

/-- A whole cell record (R128, 7.3). Verdict, reasons and lead gauge, each present only when CLOSED, are one
part with one presence byte (R174), which is the model's choice (log 21). -/
def cellBytes (c : Cell) : List Byte :=
  codeByte cellStateList c.state ++ byteOf (flagCode c.unseen) ++ wordBytes c.dieTag ++ markBytes c.marks ++
    beNat 2 c.evaluated ++ beNat 2 c.withData ++ beNat 2 c.blanked ++ beNat 2 c.partials ++
    beNat 2 c.warns ++ (c.tallies.toList.map byteOf).flatten ++ optional resultBytes c.result

/-- What a ring returns for cell n (R128): the cell as 0 and its record, another cell as 1 and its number,
an empty slot as 2 (log 21). -/
def cellReading (r : Ring) (n : Word32) : List Byte :=
  match r.at (slotOf n) with
  | none => [2]
  | some c => if c.number = n then 0 :: cellBytes c else 1 :: wordBytes c.number

/-- The die cell, station cell and saw cell now. -/
def placeBytes (s : State) : List Byte :=
  match s.lmp.geometry with
  | some g =>
    wordBytes (seqOf (g.dieCell s.pos.station)) ++ wordBytes (seqOf (g.stationCell s.pos.station)) ++
      wordBytes (seqOf (g.sawCell s.pos.station))
  | none => List.replicate 12 0

/-- READ_CELLS executed (R128). -/
def readCells : Execution := fun r s =>
  let first : Word32 := BitVec.ofNat 32 (natAt r.args 1 4)
  let n := natAt r.args 5 1
  match toFin 4 (natAt r.args 0 1) with
  | none => refuse .badValue s
  | some t =>
    if n = 0 ∨ 16 < n then refuse .range s
    else if s.dlb.service = .unconfigured then refuse .state s
    else
      answer (counted (fun i => cellReading s.lmp.rings[t] (first + BitVec.ofNat 32 i)) (List.range n) ++
        placeBytes s) s

/-- READ_CELLS (R128). -/
def execReadCells (s : State) : Host.Outcome State Fault Refusal :=
  .next (takeRequest (isCommand 12) (sizeIs 6) readCells s)

/-! ## Pieces (R158) -/

/-- A zone (9.1). -/
def zoneBytes (z : Zone) : List Byte :=
  beNat 4 z.offset ++ beNat 4 z.length ++ codeByte zoneClassList z.cls ++ beNat 2 z.reasons.toNat ++
    optional byteOf z.lead

/-- The fields of a piece after its first cell and cut cell (9.1). -/
def pieceTail (p : Piece) : List Byte :=
  beNat 4 p.cells ++ beNat 4 p.good ++ beNat 4 p.warn ++ beNat 4 p.hold ++ beNat 4 p.scrap ++
    beNat 2 p.reasons.toNat ++ counted zoneBytes p.zones ++ byteOf (flagCode p.overflow)

/-- A piece record of 9.1, with its cut cell or none. -/
def pieceBytes (cut : Option Word32) (p : Piece) : List Byte :=
  wordBytes p.first ++ optional wordBytes cut ++ pieceTail p

/-- A piece log entry with its report state, SENT 0 or UNSENT 1 (9.6). -/
def entryBytesOf (e : LogEntry) : List Byte :=
  byteOf e.completed.strand.val ++ codeByte pieceVerdictList e.completed.verdict ++
    wordBytes e.completed.number ++ wordBytes e.completed.piece.first ++ pieceTail e.completed.piece ++
    byteOf (if e.sent then 0 else 1)

/-- READ_PIECES executed (R158). -/
def readPieces : Execution := fun r s =>
  let f := natAt r.args 1 1
  match toFin 4 (natAt r.args 0 1) with
  | none => refuse .badValue s
  | some t =>
    if 15 < f then refuse .range s
    else if s.dlb.service = .unconfigured then refuse .state s
    else
      let p := s.pcu.strands[t]
      let log := s.pcu.log.filter (·.completed.strand = t)
      answer (wordBytes p.next ++ optional (pieceBytes none) p.openPiece ++
        counted (fun c => pieceBytes (some c.cut) c.piece) p.closing ++ byteOf log.length ++
        counted entryBytesOf ((log.drop f).take 4)) s

/-- READ_PIECES (R158). -/
def execReadPieces (s : State) : Host.Outcome State Fault Refusal :=
  .next (takeRequest (isCommand 13) (sizeIs 2) readPieces s)

/-! ## Alarms and reset (R178, R179) -/

/-- CLEAR_ALARMS executed (R178): the flags as they stood are returned, and all nine clear. -/
def clearAlarms : Execution := fun _ s => answer (beNat 2 s.mga.alarms.toNat) (setAlarms 0 s)

/-- CLEAR_ALARMS (R178). -/
def execClearAlarms (s : State) : Host.Outcome State Fault Refusal :=
  .next (takeRequest (isCommand 15) (sizeIs 0) clearAlarms s)

/-- RESET executed (R179): answered OK; the agent takes no further request until the soft reset. -/
def resetCommand : Execution := fun _ s => answer [] { s with mga := { s.mga with reset := .waiting } }

/-- RESET (R179). -/
def execReset (s : State) : Host.Outcome State Fault Refusal :=
  .next (takeRequest (isCommand 16) (sizeIs 0) resetCommand s)

end Sys2Proof.Machine
end

