-- ==== Sys2Proof/Machine/ConfigItems.lean ====
section
/-! DEFINITION. The writing of configuration items (spec/11 11.4): one definition for each item, by the rule of
its row. -/

namespace Sys2Proof.Machine

/-- What the judging of one entry gives: its status, and the state after it (R175). -/
abbrev Written := Status × State

/-- An entry stored. -/
def stored (s : State) : Written := (.ok, s)

/-- An entry refused, which leaves the item as it was (R175). -/
def refused (st : Status) (s : State) : Written := (st, s)

/-! ## Values and indices (R175) -/

/-- An item of a port, a line or another instance: an index out of range is BAD_VALUE (R175). -/
def atIndex (n : Nat) (index : Nat) (s : State) (f : Fin n → Written) : Written :=
  match toFin n index with
  | some i => f i
  | none => refused .badValue s

/-- An item without an instance: any index but 0 is BAD_VALUE (R175). -/
def atZero (index : Nat) (s : State) (w : Written) : Written :=
  if index = 0 then w else refused .badValue s

/-- A code of a listed set, or BAD_VALUE (R175). -/
def withCode {α : Type} (l : List α) (v : Int) (s : State) (f : α → Written) : Written :=
  match codeIn l v with
  | some x => f x
  | none => refused .badValue s

/-- A value within lo–hi, or BAD_VALUE. -/
def withinRange (lo hi : Int) (v : Int) (s : State) (f : Nat → Written) : Written :=
  if lo ≤ v ∧ v ≤ hi then f v.toNat else refused .badValue s

/-- An address in the low six bytes of a value whose two high bytes are 0, or BAD_VALUE (R175). -/
def withAddress (value : List Byte) (s : State) (f : Address → Written) : Written :=
  if natAt value 0 2 = 0 then f (BitVec.ofNat 48 (natAt value 2 6)) else refused .badValue s

/-! ## Head port items (1.1, R8, R12, R16, R33, R34) -/

/-- The port record after a role write (R16): to OFF, FLOWING with no pending notice; from OFF, a RESUME
notice is raised. -/
def Port.writeRole (r : Role) (p : Port) : Port :=
  match r with
  | .off => { p with role := .off, hold := .flowing, notice := none }
  | _ => if p.role = .off then { p with role := r }.raise .resume else { p with role := r }

/-- A trigger output when its port's role is written to OFF or PYRO: schedule emptied, output RELEASED (R33). -/
def TrigOutput.cleared (o : TrigOutput) : TrigOutput := { o with schedule := [], release := none }

/-- Item 1, the role of port p (R16, R33): from OFF, the flow-control check follows the raised notice. -/
def writeRole (p : Fin 8) (r : Role) (s : State) : State :=
  let wasOff := decide ((s.ports[p]).role = .off)
  let s := s.modPort p (Port.writeRole r)
  let s := if wasOff then flowControlCheck p s else s
  if r = .head then s else s.modOutput p TrigOutput.cleared

/-- Item 5, the forward mode, which sets the counter to 0 (R8). -/
def writeForwardMode (p : Fin 8) (m : ForwardMode) : State → State :=
  State.modPort p fun x => { x with forwardMode := m, counter := 0 }

/-- Item 6, the decimation factor, which sets the counter to 0 (R8). -/
def writeDecimation (p : Fin 8) (v : Int) : State → State :=
  State.modPort p fun x => { x with decimation := clamp 1 16 v, counter := 0 }

/-- Item 7, the reserve (R12): refused when the sum of the reserves would pass 1536, or the shared use the new
shared capacity; taken, it is followed by the eviction check. -/
def writeReserve (p : Fin 8) (v : Int) (s : State) : Written :=
  let t := s.modPort p fun x => { x with reserve := clamp 0 255 v }
  if Config.maxReserves < reserveSum t then refused .badValue s
  else if sharedCapacity t < sharedUse t then refused .inUse s
  else stored (evictionCheck t)

/-- Item 8, the high water mark: at least 1 and the low water mark + 1, at most 4095; the flow-control check
follows (R12). -/
def writeHigh (p : Fin 8) (v : Int) (s : State) : State :=
  flowControlCheck p (s.modPort p fun x => { x with high := clamp (max 1 (x.low + 1)) 4095 v })

/-- Item 9, the low water mark: at most 4094 and the high water mark − 1; the flow-control check follows
(R12). -/
def writeLow (p : Fin 8) (v : Int) (s : State) : State :=
  flowControlCheck p (s.modPort p fun x => { x with low := clamp 0 (min 4094 (x.high - 1)) v })

/-- Item 11, the mirror source: a port 0–7, or none by 8 (R7). -/
def writeMirror (v : Int) (s : State) : Written :=
  withinRange 0 8 v s fun n => stored { s with mirror := toFin 8 n }

/-! ## Uplink items (R17) -/

/-- Item 13, the station address (R17): a group address or the recorder address is refused. -/
def writeStation (value : List Byte) (s : State) : Written :=
  withAddress value s fun a =>
    if groupAddress a ∨ a = s.upl.recorder then refused .badValue s
    else stored { s with upl := { s.upl with station := a } }

/-- Item 14, the recorder address (R17): the station address is refused. -/
def writeRecorder (value : List Byte) (s : State) : Written :=
  withAddress value s fun a =>
    if a = s.upl.station then refused .badValue s
    else stored { s with upl := { s.upl with recorder := a } }

/-- Item 15, the report address (R167). -/
def writeReport (value : List Byte) (s : State) : Written :=
  withAddress value s fun a => stored { s with upl := { s.upl with report := a } }

/-- Item 16, the frame type value, 0600h–FFFFh (R17). -/
def writeFrameType (v : Int) (s : State) : Written :=
  withinRange 0x600 0xFFFF v s fun n => stored { s with upl := { s.upl with frameType := BitVec.ofNat 16 n } }

/-! ## Position and trigger items (R24–R26, R34) -/

/-- Item 19, the reverse limit (R24): S is raised to the new clamp value; the latch is kept. -/
def writeReverseLimit (v : Int) (s : State) : State :=
  let limit := clamp 1 65535 v
  { s with pos := { s.pos with reverseLimit := limit, acc := max (clampValue limit) s.pos.acc } }

/-- Item 20, the trigger mode (R25, R26): while INSPECTING, a new arming or a stop. -/
def writeTriggerMode (m : TriggerMode) (s : State) : State :=
  let s := { s with trg := { s.trg with mode := m } }
  if inspecting s then armTrigger s else s

/-- Item 21, the pitch (R34): while ARMED in PITCH mode it withdraws a deferred trigger and applies the due
test. -/
def writePitch (v : Int) (s : State) : State :=
  let s := { s with trg := { s.trg with pitch := clamp 1 65535 v } }
  if trgArmed s && s.trg.mode == .pitch then
    pitchDueTest { s with trg := { s.trg with deferred := false } }
  else s

/-- Item 22, Tmin (R34): Tp is raised to it, and a deferred trigger fires at once when the new Tmin has
passed. -/
def writeTmin (v : Int) (s : State) : State :=
  let t := clamp 100 65535 v
  fireDeferred { s with trg := { s.trg with tmin := t, period := max t s.trg.period } }

/-- Item 23, Tp, from the stored Tmin to 1 000 000 (R34). -/
def writeTp (v : Int) (s : State) : State :=
  { s with trg := { s.trg with period := clamp s.trg.tmin 1000000 v } }

/-! ## Scheduling and binding items (R166, R177) -/

/-- Item 35, the scheduling mode: the turn becomes A and the turn count 0 (R166). -/
def writeScheduling (m : SchedMode) (s : State) : State :=
  { s with egs := { s.egs with mode := m, turn := .a, turnCount := 0 } }

/-- The bound address after a taken write of the binding mode from a source (R177). -/
def boundBy (m : BindingMode) (source fixed : Address) : Option Address :=
  match m with
  | .openMode => none
  | .first => some source
  | .fixed => some fixed

/-- Item 37, the binding mode (R177): FIXED is refused while the fixed address is 0. -/
def writeBinding (source : Address) (m : BindingMode) (s : State) : Written :=
  if m = .fixed ∧ s.mga.fixed = 0 then refused .badValue s
  else stored { s with mga := { s.mga with mode := m, bound := boundBy m source s.mga.fixed } }

/-- Item 38, the fixed address (R177): a group address or 0 is refused; under FIXED the bound address moves at
once. -/
def writeFixed (value : List Byte) (s : State) : Written :=
  withAddress value s fun a =>
    if groupAddress a ∨ a = 0 then refused .badValue s
    else
      stored { s with mga := { s.mga with
        fixed := a, bound := if s.mga.mode = .fixed then some a else s.mga.bound } }

/-! ## Head filters (12.2, 11.4) -/

/-- Item 39, a head filter: head id in the low byte, enable in the next, every other byte 0 (11.4). -/
def writeFilter (f : Fin 2) (value : List Byte) (s : State) : Written :=
  match toFin 16 (natAt value 7 1) with
  | none => refused .badValue s
  | some h =>
    if natAt value 0 6 = 0 ∧ natAt value 6 1 ≤ 1 then
      stored { s with ctb := { s.ctb with
        filters := upd s.ctb.filters f fun _ => { enabled := natAt value 6 1 == 1, head := h } } }
    else refused .badValue s

/-! ## The items (11.4) -/

/-- Items 1–12, of the head ports and the pool. -/
def writePortItem (e : ConfigEntry) (s : State) : Written :=
  let v := e.signed
  match e.item with
  | 1 => atIndex 8 e.index s fun p => withCode roleList v s fun r => stored (writeRole p r s)
  | 2 => atIndex 8 e.index s fun p => withCode admissionList v s fun m =>
      stored (s.modPort p fun x => { x with admission := m })
  | 3 => atIndex 8 e.index s fun p => withCode headIds v s fun h =>
      stored (s.modPort p fun x => { x with defaultHead := h })
  | 4 => atIndex 8 e.index s fun p => withCode dispositionList v s fun d =>
      stored (s.modPort p fun x => { x with nonScan := d })
  | 5 => atIndex 8 e.index s fun p => withCode forwardList v s fun m => stored (writeForwardMode p m s)
  | 6 => atIndex 8 e.index s fun p => stored (writeDecimation p v s)
  | 7 => atIndex 8 e.index s fun p => writeReserve p v s
  | 8 => atIndex 8 e.index s fun p => stored (writeHigh p v s)
  | 9 => atIndex 8 e.index s fun p => stored (writeLow p v s)
  | 10 => atIndex 8 e.index s fun p =>
      stored (s.modOutput p fun o => { o with phaseDelay := clamp 0 255 v })
  | 11 => atZero e.index s (writeMirror v s)
  | 12 => atZero e.index s (stored { s with pool := { s.pool with evictionLevel := clamp 0 1024 v } })
  | _ => refused .badValue s

/-- Items 13–23, of the uplink, the position tracker and the trigger generator. -/
def writeLineItem (e : ConfigEntry) (s : State) : Written :=
  let v := e.signed
  match e.item with
  | 13 => atZero e.index s (writeStation e.value s)
  | 14 => atZero e.index s (writeRecorder e.value s)
  | 15 => atZero e.index s (writeReport e.value s)
  | 16 => atZero e.index s (writeFrameType v s)
  | 17 => atZero e.index s (withCode senseList v s fun m => stored { s with pos := { s.pos with sense := m } })
  | 18 => atZero e.index s (stored { s with pos := { s.pos with scale := clamp 1 1048575 v } })
  | 19 => atZero e.index s (stored (writeReverseLimit v s))
  | 20 => atZero e.index s (withCode triggerList v s fun m => stored (writeTriggerMode m s))
  | 21 => atZero e.index s (stored (writePitch v s))
  | 22 => atZero e.index s (stored (writeTmin v s))
  | 23 => atZero e.index s (stored (writeTp v s))
  | _ => refused .badValue s

/-- Items 24–34, of the section assembly unit, the temperature unit, the event and mark unit and the piece
unit (R54, R67, R143, R145, R156). -/
def writeInspectionItem (e : ConfigEntry) (s : State) : Written :=
  let v := e.signed
  match e.item with
  | 24 => atZero e.index s (stored { s with sau := { s.sau with timeout := clamp 1 50000 v } })
  | 25 => atZero e.index s (stored { s with sau := { s.sau with fenceLimit := clamp 1 255 v } })
  | 26 => atZero e.index s (stored { s with sau := { s.sau with restoreCount := clamp 0 255 v } })
  | 27 => atZero e.index s (stored { s with tmu := { s.tmu with holdTime := clamp 10 60000 v } })
  | 28 => atIndex 4 e.index s fun l =>
      stored { s with emu := { s.emu with
        lines := upd s.emu.lines l fun x => { x with time := clamp 0 1000 v } } }
  | 29 => atZero e.index s (stored { s with emu := { s.emu with stillTime := clamp 100 65535 v } })
  | 30 => atZero e.index s (withCode [false, true] v s fun b =>
      stored { s with emu := { s.emu with proofEnable := b } })
  | 31 => atZero e.index s (withinRange 0 0xFFFFFFFF v s fun n =>
      stored { s with emu := { s.emu with proofCompare := BitVec.ofNat 32 n } })
  | 32 => atZero e.index s (withinRange 0 0xFFFFFFFF v s fun n =>
      stored { s with emu := { s.emu with proofMask := BitVec.ofNat 32 n } })
  | 33 => atZero e.index s (withinRange 0 15 v s fun n =>
      stored { s with emu := { s.emu with proofStrands := BitVec.ofNat 4 n } })
  | 34 => atZero e.index s (stored { s with pcu := { s.pcu with holdTime := clamp 10 10000 v } })
  | _ => refused .badValue s

/-- Items 35–39, of the scheduler, the management agent and the counter bank; every other item number is
unknown or read-only (R175). -/
def writeAgentItem (source : Address) (e : ConfigEntry) (s : State) : Written :=
  let v := e.signed
  match e.item with
  | 35 => atZero e.index s (withCode schedList v s fun m => stored (writeScheduling m s))
  | 36 => atIndex 4 e.index s fun q =>
      stored { s with egs := { s.egs with quotas := upd s.egs.quotas q fun _ => clamp 1 15 v } }
  | 37 => atZero e.index s (withCode bindingList v s fun m => writeBinding source m s)
  | 38 => atZero e.index s (writeFixed e.value s)
  | 39 => atIndex 2 e.index s fun f => writeFilter f e.value s
  | _ => refused .badValue s

/-- One entry of a SET_CONFIG request judged and stored (R175), in a request from the given source. -/
def writeItem (source : Address) (e : ConfigEntry) (s : State) : Written :=
  if e.item ≤ 12 then writePortItem e s
  else if e.item ≤ 23 then writeLineItem e s
  else if e.item ≤ 34 then writeInspectionItem e s
  else writeAgentItem source e s

end Sys2Proof.Machine
end

