-- ==== Sys2Proof/Machine/ConfigCommands.lean ====
section
/-! DEFINITION. SET_CONFIG and GET_CONFIG (R175), and the rows of the command table that a SET_CONFIG request
is taken as. -/

namespace Sys2Proof.Machine

/-! ## Results (R175, R174) -/

/-- The result of one entry: item, index, status and value (R175); an unknown item or an index out of range
has value 0. R175 gives this layout for SET_CONFIG; that a GET_CONFIG result repeats item and index ahead of
status and value too is the model's choice (log 21). -/
def entryResult (item index : Nat) (st : Status) (s : State) : List Byte :=
  beNat 2 item ++ byteOf index ++ [st.code] ++ (itemReading item index s).getD (beNat 8 0)

/-- A Tmin result also gives the stored Tp (R175, R34). That the result of an entry naming item 22 with an index
other than 0, refused as out of range, gives no Tp is the model's choice (log 43). -/
def setResult (item index : Nat) (st : Status) (s : State) : List Byte :=
  entryResult item index st s ++ if item = 22 ∧ index = 0 then beNat 3 s.trg.period else []

/-- The status of a request whose entries gave these statuses: OK, or that of the first one refused. -/
def firstRefusal (sts : List Status) : Status := (sts.find? (· != .ok)).getD .ok

/-- The results so far: statuses and result bytes, in order, with the state after the last entry. -/
structure Results where
  statuses : List Status
  results : List (List Byte)
  state : State

/-- One entry judged against the values stored by the entries before it (R175). -/
def setEntry (source : Address) (acc : Results) (e : ConfigEntry) : Results :=
  let w := writeItem source e acc.state
  { statuses := acc.statuses ++ [w.1]
    results := acc.results ++ [setResult e.item e.index w.1 w.2]
    state := w.2 }

/-- SET_CONFIG executed (R175). -/
def setConfig : Execution := fun r s =>
  let acc := (configEntries r.args).foldl (setEntry r.source) { statuses := [], results := [], state := s }
  ({ status := firstRefusal acc.statuses, data := counted id acc.results }, acc.state)

/-- The status of one pair of a GET_CONFIG request (R175). -/
def pairStatus (s : State) (p : Nat × Nat) : Status :=
  if (itemReading p.1 p.2 s).isSome then .ok else .badValue

/-- GET_CONFIG executed (R175): reading changes nothing. -/
def getConfig : Execution := fun r s =>
  let pairs := configPairs r.args
  ({ status := firstRefusal (pairs.map (pairStatus s))
     data := counted (fun p => entryResult p.1 p.2 (pairStatus s p) s) pairs }, s)

/-- GET_CONFIG (R175): 1 to 8 pairs of 3 bytes. -/
def execGetConfig (s : State) : Host.Outcome State Fault Refusal :=
  .next (takeRequest (isCommand 3) (sizeOfParts 3 1 8) getConfig s)

/-! ## The rows of SET_CONFIG (log 6) -/

/-- A SET_CONFIG request of a sound size: 1 to 8 entries of 11 bytes (11.3). -/
def soundSetConfig (r : Request) : Bool := isCommand 2 r && sizeOfParts 11 1 8 r.args.length

/-- The item number of a SET_CONFIG request's first entry. -/
def firstItem (r : Request) : Nat := natAt r.args 0 2

/-- The items that have a row of their own in the command table. -/
def itemsWithRow : List Nat := [1, 5, 6, 7, 8, 9, 11, 13, 14, 16, 19, 20, 21, 22, 23, 35, 37, 38]

/-- A SET_CONFIG request whose first entry names one of the given items, taken whole as one event. -/
def takeWrite (items : List Nat) (s : State) : State :=
  takeRequest (fun r => soundSetConfig r && items.contains (firstItem r)) (sizeOfParts 11 1 8) setConfig s

/-- WRITE_PORT_ROLE (R16): item 1 is written as `writeRole` says. -/
def execWritePortRole (s : State) : Host.Outcome State Fault Refusal := .next (takeWrite [1] s)

/-- WRITE_FORWARD_MODE (R8): item 5 is written as `writeForwardMode` says. -/
def execWriteForwardMode (s : State) : Host.Outcome State Fault Refusal := .next (takeWrite [5] s)

/-- WRITE_DECIMATION_FACTOR (R8): item 6 is written as `writeDecimation` says. -/
def execWriteDecimationFactor (s : State) : Host.Outcome State Fault Refusal := .next (takeWrite [6] s)

/-- WRITE_RESERVE (R12): item 7 is written as `writeReserve` says. -/
def execWriteReserve (s : State) : Host.Outcome State Fault Refusal := .next (takeWrite [7] s)

/-- WRITE_WATER_MARK (R12): items 8 and 9 are written as `writeHigh` and `writeLow` say. -/
def execWriteWaterMark (s : State) : Host.Outcome State Fault Refusal := .next (takeWrite [8, 9] s)

/-- WRITE_MIRROR_SOURCE (R7): item 11 is written as `writeMirror` says. -/
def execWriteMirrorSource (s : State) : Host.Outcome State Fault Refusal := .next (takeWrite [11] s)

/-- WRITE_STATION_ADDRESS (R17): item 13 is written as `writeStation` says. -/
def execWriteStationAddress (s : State) : Host.Outcome State Fault Refusal := .next (takeWrite [13] s)

/-- WRITE_RECORDER_ADDRESS (R17): item 14 is written as `writeRecorder` says. -/
def execWriteRecorderAddress (s : State) : Host.Outcome State Fault Refusal := .next (takeWrite [14] s)

/-- WRITE_FRAME_TYPE_VALUE (R17): item 16 is written as `writeFrameType` says. -/
def execWriteFrameTypeValue (s : State) : Host.Outcome State Fault Refusal := .next (takeWrite [16] s)

/-- WRITE_REVERSE_LIMIT (R24): item 19 is written as `writeReverseLimit` says. -/
def execWriteReverseLimit (s : State) : Host.Outcome State Fault Refusal := .next (takeWrite [19] s)

/-- WRITE_TRIGGER_MODE (R25, R26): item 20 is written as `writeTriggerMode` says. -/
def execWriteTriggerMode (s : State) : Host.Outcome State Fault Refusal := .next (takeWrite [20] s)

/-- WRITE_PITCH (R34): item 21 is written as `writePitch` says. -/
def execWritePitch (s : State) : Host.Outcome State Fault Refusal := .next (takeWrite [21] s)

/-- WRITE_TMIN (R34): item 22 is written as `writeTmin` says. -/
def execWriteTmin (s : State) : Host.Outcome State Fault Refusal := .next (takeWrite [22] s)

/-- WRITE_TP (R34): item 23 is written as `writeTp` says. -/
def execWriteTp (s : State) : Host.Outcome State Fault Refusal := .next (takeWrite [23] s)

/-- WRITE_SCHEDULING_MODE (R166): item 35 is written as `writeScheduling` says. -/
def execWriteSchedulingMode (s : State) : Host.Outcome State Fault Refusal := .next (takeWrite [35] s)

/-- WRITE_BINDING_MODE (R177): item 37 is written as `writeBinding` says. -/
def execWriteBindingMode (s : State) : Host.Outcome State Fault Refusal := .next (takeWrite [37] s)

/-- WRITE_FIXED_ADDRESS (R177): item 38 is written as `writeFixed` says. -/
def execWriteFixedAddress (s : State) : Host.Outcome State Fault Refusal := .next (takeWrite [38] s)

/-- WRITE_CONFIG_ITEM (R175): every other SET_CONFIG request, a malformed one among them. -/
def execWriteConfigItem (s : State) : Host.Outcome State Fault Refusal :=
  .next (takeRequest
    (fun r => isCommand 2 r && !(soundSetConfig r && itemsWithRow.contains (firstItem r)))
    (sizeOfParts 11 1 8) setConfig s)

end Sys2Proof.Machine
end

