-- ==== Sys2Proof/Machine/CounterCommands.lean ====
section
/-! DEFINITION. The COUNTERS request (spec/12 12.4, R183, R184). -/

namespace Sys2Proof.Machine

/-- An instance of a scope (12.1). -/
inductive CounterInstance
  | port (i : Fin 9)
  | head (h : Fin 16)
  | strand (t : Fin 4)
  | global
  deriving DecidableEq, Repr

/-- A scope is coded 0–3 (12.4). -/
def scopeKnown (scope : Nat) : Bool := decide (scope ≤ 3)

/-- The instance a scope and an index name, if the index is in the scope's range (R184). -/
def instanceOf (scope index : Nat) : Option CounterInstance :=
  match scope with
  | 0 => (toFin 9 index).map .port
  | 1 => (toFin 16 index).map .head
  | 2 => (toFin 4 index).map .strand
  | _ => if index = 0 then some .global else none

/-- The counters of an instance in position order (R184). -/
def CounterInstance.values (c : Counters) : CounterInstance → List Word32
  | .port i => (c.ports[i]).toList
  | .head h => (c.heads[h]).toList
  | .strand t => (c.strands[t]).toList
  | .global => c.global.toList

/-- Every counter of an instance 0 (R184). -/
def Counters.clearInstance (i : CounterInstance) (c : Counters) : Counters :=
  match i with
  | .port i => { c with ports := upd c.ports i fun _ => .replicate 11 0 }
  | .head h => { c with heads := upd c.heads h fun _ => .replicate 7 0 }
  | .strand t => { c with strands := upd c.strands t fun _ => .replicate 14 0 }
  | .global => { c with global := .replicate 18 0 }

/-- Every counter of every instance of a scope 0 (R184). -/
def Counters.clearScope (scope : Nat) (c : Counters) : Counters :=
  match scope with
  | 0 => { c with ports := .replicate 9 (.replicate 11 0) }
  | 1 => { c with heads := .replicate 16 (.replicate 7 0) }
  | 2 => { c with strands := .replicate 4 (.replicate 14 0) }
  | _ => { c with global := .replicate 18 0 }

/-- Every counter of every scope 0, the freeze flag and the head filters kept (R184). -/
def Counters.clearAll (c : Counters) : Counters := { Counters.cleared c.filters with frozen := c.frozen }

/-- The counter bank replaced. -/
def setCounters (c : Counters) (s : State) : State := { s with ctb := c }

/-- The freeze flag as a response carries it: FROZEN 0, RUNNING 1 (R173, log 20). -/
def freezeByte (c : Counters) : List Byte := byteOf (if c.frozen then 0 else 1)

/-- The data of a READ (R184): the freeze flag, then every counter, 4 bytes each. -/
def readingOf (i : CounterInstance) (c : Counters) : List Byte :=
  freezeByte c ++ ((i.values c).map wordBytes).flatten

/-- The scope field of a COUNTERS request. -/
def scopeArg (r : Request) : Nat := natAt r.args 1 1

/-- A request that reads scope and index (R184): the checks, then its effect on the instance. -/
def onInstance (r : Request) (s : State) (f : CounterInstance → Reply × State) : Reply × State :=
  if scopeKnown (scopeArg r) then
    match instanceOf (scopeArg r) (natAt r.args 2 1) with
    | some i => f i
    | none => refuse .range s
  else refuse .badValue s

/-- READ executed (R184); an operation code above 5 is refused with BAD_VALUE. -/
def readCounters : Execution := fun r s =>
  if natAt r.args 0 1 = 0 then onInstance r s fun i => answer (readingOf i s.ctb) s
  else refuse .badValue s

/-- READ_CLEAR executed (R184). -/
def readClear : Execution := fun r s =>
  onInstance r s fun i =>
    if s.ctb.frozen then refuse .state s
    else answer (readingOf i s.ctb) (setCounters (s.ctb.clearInstance i) s)

/-- CLEAR_SCOPE executed (R184). -/
def clearScope : Execution := fun r s =>
  if scopeKnown (scopeArg r) then
    if s.ctb.frozen then refuse .state s
    else answer (freezeByte s.ctb) (setCounters (s.ctb.clearScope (scopeArg r)) s)
  else refuse .badValue s

/-- CLEAR_ALL executed (R184). -/
def clearAll : Execution := fun _ s =>
  if s.ctb.frozen then refuse .state s else answer (freezeByte s.ctb) (setCounters s.ctb.clearAll s)

/-- FREEZE or UNFREEZE executed (R183): the response gives the flag after the request. -/
def setFreeze (b : Bool) : Execution := fun _ s =>
  answer (freezeByte { s.ctb with frozen := b }) (setCounters { s.ctb with frozen := b } s)

/-- A COUNTERS request of a sound size with the given operation code (12.4). -/
def isOperation (op : Nat) (r : Request) : Bool :=
  isCommand 14 r && sizeIs 3 r.args.length && natAt r.args 0 1 == op

/-- READ (R184); a COUNTERS request of a wrong size or with an operation code above 5 is taken as this row
(log 6). -/
def execRead (s : State) : Host.Outcome State Fault Refusal :=
  .next (takeRequest (fun r => isCommand 14 r && !(sizeIs 3 r.args.length && decide (1 ≤ natAt r.args 0 1) &&
    decide (natAt r.args 0 1 ≤ 5))) (sizeIs 3) readCounters s)

/-- READ_CLEAR (R184). -/
def execReadClear (s : State) : Host.Outcome State Fault Refusal :=
  .next (takeRequest (isOperation 1) (sizeIs 3) readClear s)

/-- CLEAR_SCOPE (R184). -/
def execClearScope (s : State) : Host.Outcome State Fault Refusal :=
  .next (takeRequest (isOperation 2) (sizeIs 3) clearScope s)

/-- CLEAR_ALL (R184). -/
def execClearAll (s : State) : Host.Outcome State Fault Refusal :=
  .next (takeRequest (isOperation 3) (sizeIs 3) clearAll s)

/-- FREEZE (R183). -/
def execFreeze (s : State) : Host.Outcome State Fault Refusal :=
  .next (takeRequest (isOperation 4) (sizeIs 3) (setFreeze true) s)

/-- UNFREEZE (R183). -/
def execUnfreeze (s : State) : Host.Outcome State Fault Refusal :=
  .next (takeRequest (isOperation 5) (sizeIs 3) (setFreeze false) s)

end Sys2Proof.Machine
end

