-- ==== Sys2Proof/Machine/Evaluator.lean ====
section
/-! DEFINITION. The gauge evaluator (spec/06): picks, gauge results, outcomes, deliveries and section
records. -/

namespace Sys2Proof.Machine

/-! ## Picks (R100) -/

/-- The accumulator gives a pick: enough points for the window, and not tainted (R100). -/
def usable (w : Window) (a : Accumulator) : Bool := decide (w.minCount ≤ a.count) && !a.tainted

/-- Least coordinate of an accumulator on an axis. -/
def Accumulator.least (a : Accumulator) : Axis → Int
  | .x => a.minX
  | .y => a.minY

/-- Greatest coordinate of an accumulator on an axis. -/
def Accumulator.greatest (a : Accumulator) : Axis → Int
  | .x => a.maxX
  | .y => a.maxY

/-- Sum of an accumulator on an axis. -/
def Accumulator.total (a : Accumulator) : Axis → Int
  | .x => a.sumX
  | .y => a.sumY

/-- A pick's value (R100). -/
def Accumulator.pick (a : Accumulator) (axis : Axis) : Pick → Int
  | .min => a.least axis
  | .max => a.greatest axis
  | .mean => roundedDiv (a.total axis) a.count

/-- The accumulator of window w of strand t in a slot, when it gives a pick. -/
def usableWindow (die : DieRecord) (slot : Slot) (t : Fin 4) (w : Nat) : Option Accumulator :=
  match toFin 64 w with
  | none => none
  | some i =>
    match (slot.windows[t])[w]? with
    | some a => if usable (die.windows[t])[i] a then some a else none
    | none => none

/-! ## Gauge results (R101–R105) -/

/-- A gauge's hot value, when its picks are all available (R101, R104). -/
def hotValue (die : DieRecord) (slot : Slot) (t : Fin 4) (g : Gauge) : Option Int :=
  match g.kind with
  | .span =>
    match usableWindow die slot t g.windowA, usableWindow die slot t g.windowB with
    | some a, some b =>
      some (saturate Config.coordLimit (b.pick g.axis g.pickB - a.pick g.axis g.pickA))
    | _, _ => none
  | .spread =>
    (usableWindow die slot t g.windowA).map fun a =>
      saturate Config.coordLimit (a.greatest g.axis - a.least g.axis)

/-- The deviation of a hot value (R102): its cold value less the nominal, saturated. -/
def deviationOf (g : Gauge) (shrink : Nat) (hot : Int) : Int :=
  let cold := if g.thermal then coldEquivalent hot shrink else hot
  saturate Config.coordLimit (cold - g.nominal)

/-- The band of a deviation (R103). -/
def bandOf (g : Gauge) (d : Int) : Band :=
  if d < g.rejLo ∨ g.rejHi < d then .reject
  else if d < g.warnLo ∨ g.warnHi < d then .warn
  else .good

/-- A head is short in a slot (R49). -/
def HeadEntry.isShort (e : HeadEntry) : Bool :=
  (e.participation == .measure && e.contribution != .complete) || e.participation == .fenced

/-- The head set of window w of strand t contains a head that is short in the slot (R105). -/
def windowShort (die : DieRecord) (slot : Slot) (t : Fin 4) (w : Nat) : Bool :=
  match toFin 64 w with
  | none => false
  | some i => headIds.any fun h => (die.windows[t])[i].heads.getLsbD h.val && (slot.heads[h]).isShort

/-- A gauge result carries PARTIAL (R105). -/
def gaugeShort (die : DieRecord) (slot : Slot) (t : Fin 4) (g : Gauge) : Bool :=
  windowShort die slot t g.windowA || (g.kind == .span && windowShort die slot t g.windowB)

/-- The result of gauge number n of strand t (R99, R104): a gauge without its picks is NODATA with
deviation 0. -/
def gaugeResult (die : DieRecord) (slot : Slot) (t : Fin 4) (n : Fin 32) : GaugeResult :=
  let g := (die.gauges[t])[n]
  let partialFlag := gaugeShort die slot t g
  match hotValue die slot t g with
  | none => { gauge := n.val, band := .nodata, deviation := 0, short := partialFlag }
  | some hot =>
    let d := deviationOf g (slot.temps[t]).shrink hot
    { gauge := n.val, band := bandOf g d, deviation := d, short := partialFlag }

/-- The results of strand t's enabled gauges below its gauge count, in ascending order (R99). -/
def strandResults (die : DieRecord) (slot : Slot) (t : Fin 4) : List GaugeResult :=
  (gaugeNumbers.filter fun n =>
    decide (n.val < (die.strands[t]).gaugeCount) && (die.gauges[t])[n].enabled).map
    (gaugeResult die slot t)

/-! ## Delivery to cells (R98, R106–R108) -/

/-- The gauge rejects of an outcome (R106). -/
def rejected (rs : List GaugeResult) (g : Fin 32) : Bool :=
  rs.any fun r => r.gauge == g.val && r.band == .reject

/-- An evaluated strand outcome applied to a cell (R106, R108). -/
def Cell.applyOutcome (rs : List GaugeResult) (c : Cell) : Cell :=
  { c with
    evaluated := satSucc 65535 c.evaluated
    withData := if rs.any (·.band != .nodata) then satSucc 65535 c.withData else c.withData
    partials := if rs.any (·.short) then satSucc 65535 c.partials else c.partials
    warns := if rs.any (·.band == .warn) then satSucc 65535 c.warns else c.warns
    tallies := Vector.ofFn fun g => if rejected rs g then satSucc 15 c.tallies[g] else c.tallies[g] }

/-- A blanked outcome applied to a cell (R98). -/
def Cell.applyBlanked (c : Cell) : Cell := { c with blanked := satSucc 65535 c.blanked }

/-- An outcome delivered to cell n of strand t (R107): applied where the ring slot holds cell n, not CLOSED;
otherwise discarded and counted SECTION_BEYOND_SAW. -/
def deliver (t : Fin 4) (n : Word32) (f : Cell → Cell) (s : State) : State :=
  if ((s.lmp.rings[t]).cell n).any Cell.isOpen then s.modRing t (Ring.onCell n f)
  else countStrand t .beyondSaw s

/-! ## Section records (R109, R110) -/

/-- A strand section of number seq with these results is sampled (R109). -/
def sampled (die : DieEntry) (seq : BitVec 16) (rs : List GaugeResult) : Bool :=
  !rs.isEmpty && (seq &&& die.sampleMask == die.sampleCompare &&& die.sampleMask)

/-- The section record of strand t (R109). -/
def sectionRecordOf (slot : Slot) (t : Fin 4) (rs : List GaugeResult) : SectionRecord :=
  { seq := slot.seq, strand := t, stale := (slot.temps[t]).stale, byDefault := (slot.temps[t]).byDefault,
    cell := slot.cell, temp := (slot.temps[t]).temp, shrink := (slot.temps[t]).shrink, entries := rs }

/-- A section record offered to queue C (R110). -/
def offerSection (r : SectionRecord) (s : State) : State :=
  if s.egs.c.length < Config.queueC then
    { s with egs := { s.egs with c := s.egs.c ++ [makeFrame s none (.sectionRecord r)] } }
  else countGlobal .sectionRecordsDropped s

/-! ## Completion (R95) -/

/-- Strand t's outcome of a blanked slot (R98). -/
def completeBlanked (slot : Slot) (t : Fin 4) (s : State) : State :=
  deliver t slot.cell Cell.applyBlanked (countStrand t .blanked s)

/-- Strand t's outcome of an evaluated slot, delivered and then sampled (R107, R110). -/
def completeEvaluated (slot : Slot) (t : Fin 4) (s : State) : State :=
  let die := servingDie s
  let rs := strandResults die slot t
  let s := deliver t slot.cell (Cell.applyOutcome rs) (countStrand t .evaluated s)
  if sampled die.entry slot.seq rs then offerSection (sectionRecordOf slot t rs) s else s

/-- An evaluation completes (R95): outcomes in strand order, the slot becomes FREE, the next is taken. -/
def completeEvaluation (s : State) : State :=
  match s.gev.current with
  | none => s
  | some (i, blanked) =>
    let slot := s.sau.slots[i]
    let s := forEach (usedStrands s)
      (if blanked then completeBlanked slot else completeEvaluated slot) s
    let s := s.modSlot i fun _ => Slot.empty
    takeSlot (setEvaluator { s.gev with current := none } s)

/-- EVALUATION_COMPLETE (R95). -/
def execEvaluationComplete (s : State) : Host.Outcome State Fault Refusal := .next (completeEvaluation s)

end Sys2Proof.Machine
end

