-- ==== Sys2Proof/Machine/HeadPort.lean ====
section
/-! DEFINITION. The head ports (spec/01 1.2, 1.3): reception, admission, mirroring, forwarding, notices. -/

namespace Sys2Proof.Machine

/-- A frame with holders asks for its blocks (R4–R6, R10). Granted, it is admitted and counted, a queue D
entry is counted as forwarded, and `onGrant` follows; refused, it is dropped and counted NO_BUFFER. Both
are followed by the flow-control and eviction checks (log 15). -/
def takeBlocks (f : HeldFrame) (onGrant : State → State) (s : State) : State :=
  if grantFits f.port f.blocks s then
    let s := countPort f.port.castSucc .admitted (setHeld (s.pool.held ++ [f]) s)
    let s := if f.inQueueD then countPort f.port.castSucc .forwarded s else s
    poolChecks f.port (onGrant s)
  else poolChecks f.port (countPort f.port.castSucc .noBuffer s)

/-- The position stamp of a frame admitted now (R9). -/
def stampOf (h : Fin 16) (replaced : Bool) (s : State) : Stamp :=
  let head := s.heads[h]
  let mapValid := decide (s.dlb.service ≠ .unconfigured)
  let place : Word32 × Nat :=
    match s.lmp.geometry, mapValid with
    | some g, true =>
      (seqOf (g.stationCell s.pos.station), (g.material s.pos.station % g.cellLength).toNat)
    | _, _ => (0, 0)
  { strand := if head.written then head.cal.strand else 0
    cell := place.1
    residue := place.2
    station := BitVec.ofNat 32 s.pos.station
    mapValid := mapValid
    inspecting := inspecting s
    headStamped := replaced }

/-- Port p is the mirror source (R7). -/
def isMirror (p : Fin 8) (s : State) : Bool := s.mirror = some p

/-- Port p's forwarding decision for an arriving SCAN frame (R8): under DECIMATED, the counter increased by
one equals N. -/
def forwards (port : Port) : Bool :=
  match port.forwardMode with
  | .off => false
  | .all => true
  | .decimated => port.counter + 1 == port.decimation

/-- The decimation counter after an admitted SCAN frame (R8): it advances only under DECIMATED and not on
the mirror source (R7). -/
def advanceDecimation (p : Fin 8) (s : State) : State :=
  if isMirror p s then s
  else
    s.modPort p fun port =>
      match port.forwardMode with
      | .decimated =>
        { port with counter := if port.counter + 1 = port.decimation then 0 else port.counter + 1 }
      | _ => port

/-- Queue D's part in a SCAN frame admitted on port p (R7, R8): a RAW entry on the mirror source, a FORWARD
entry with its stamp when the forward mode so decides. -/
def scanEntry (p : Fin 8) (h : Fin 16) (replaced : Bool) (s : State) : DHold :=
  if isMirror p s then .queued .raw
  else if forwards s.ports[p] then .queued (.forward (stampOf h replaced s))
  else .none

/-- A SCAN frame that has passed R3, stored as given, judged by the state of its head (R4). -/
def admitScan (p : Fin 8) (stored : List Byte) (replaced : Bool) (s : State) : State :=
  let h := admittedHead stored
  match (s.heads[h]).state with
  | .off => countPort p.castSucc .headOff s
  | st =>
    let frame : HeldFrame :=
      { port := p, bytes := stored, ptu := decide (st ≠ .listen), tmu := false,
        queueD := scanEntry p h replaced s }
    if frame.isHeld then takeBlocks frame (advanceDecimation p) s
    else advanceDecimation p (countPort p.castSucc .admitted s)

/-- A sound SCAN frame on a HEAD port is given its head id by the admission mode (R3). -/
def judgeScan (p : Fin 8) (bs : List Byte) (s : State) : State :=
  let port := s.ports[p]
  let differs := decide (scanHead bs ≠ port.defaultHead.val)
  match port.admission with
  | .any => admitScan p bs false s
  | .matchId => if differs then countPort p.castSucc .admitMismatch s else admitScan p bs false s
  | .stamp => admitScan p (stampHead port.defaultHead bs) differs s

/-- A sound TEMP frame on a PYRO port (R5, R7). -/
def judgeTemp (p : Fin 8) (bs : List Byte) (s : State) : State :=
  takeBlocks
    { port := p, bytes := bs, ptu := false, tmu := true,
      queueD := if isMirror p s then .queued .raw else .none } id s

/-- A non-scan frame (R6), on the mirror source under the UPLINK treatment whatever the disposition (R7). -/
def judgeNonScan (p : Fin 8) (bs : List Byte) (s : State) : State :=
  if isMirror p s || (s.ports[p]).nonScan = .uplink then
    takeBlocks { port := p, bytes := bs, ptu := false, tmu := false, queueD := .queued .raw } id s
  else countPort p.castSucc .nonScanDropped s

/-- A frame that R1 keeps: counted as received, its source learned, then judged by the port's role. -/
def judgeFrame (p : Fin 8) (bs : List Byte) (s : State) : State :=
  let s := countPort p.castSucc .received s
  let s := s.modPort p fun port => { port with learned := some (sourceAddr bs) }
  match (s.ports[p]).role with
  | .off => s
  | .head => if soundScan s.upl.frameType bs then judgeScan p bs s else judgeNonScan p bs s
  | .pyro => if soundTemp s.upl.frameType bs then judgeTemp p bs s else judgeNonScan p bs s

/-- A frame taken whole on head port p (R1): one that is unsound, or whose last byte arrives while a reset
is in progress (R15), is discarded and changes nothing. -/
def receiveOnPort (f : Frame) (p : Fin 8) (s : State) : State :=
  if s.inReset || !soundFrame f then s else judgeFrame p f.bytes s

/-- HEAD_FRAME_RECEIVE (R1). -/
def execHeadFrameReceive (port : Nat) (frame : Frame) (s : State) : Host.Outcome State Fault Refusal :=
  withIndex port s (receiveOnPort frame)

/-- The pending notice of port p begins to be sent (R13), when the transmitter is idle and no reset is in
progress (R16): it is counted, and addressed to the learned head address or the broadcast address. -/
def startNotice (p : Fin 8) (s : State) : State :=
  let port := s.ports[p]
  match port.notice, port.transmitting, s.inReset with
  | some n, none, false =>
    let bytes := noticeBytes (port.learned.getD Config.broadcast) s.upl.station s.upl.frameType n
    let s := s.modPort p fun q =>
      { q with notice := none, transmitting := some { notice := n, bytes := bytes } }
    countPort p.castSucc (if n = .hold then .holdSent else .resumeSent) s
  | _, _, _ => s

/-- NOTICE_SEND_START (R13). -/
def execNoticeSendStart (port : Nat) (s : State) : Host.Outcome State Fault Refusal :=
  withIndex port s startNotice

/-- The notice being sent on port p has been sent whole (R13): the transmitter is idle. -/
def endNotice (p : Fin 8) (s : State) : State :=
  s.modPort p fun port => { port with transmitting := none }

/-- NOTICE_SEND_END (R13). -/
def execNoticeSendEnd (port : Nat) (s : State) : Host.Outcome State Fault Refusal :=
  withIndex port s endNotice

end Sys2Proof.Machine
end

