-- ==== Sys2Proof/Machine/Resets.lean ====
section
/-! DEFINITION. The three resets and the end of a reset: each block's table of values (R15–R17, R24, R35,
R55, R58, R67, R71, R93, R111, R131, R146, R159, R166, R180, R185). A reset begins with its command and lasts
until RESET_END. -/

namespace Sys2Proof.Machine

/-! ## Power-on reset and pin reset -/

/-- Every block at its power-on values, a reset being in progress. -/
def powerOnReset (straps : BitVec 3) (s : State) : State :=
  { State.powerOn straps s.pins s.now with inReset := true, pending := s.pending }

/-- POWER_ON_RESET (R93). -/
def execPowerOnReset (straps : BitVec 3) (s : State) : Host.Outcome State Fault Refusal :=
  .next (powerOnReset straps s)

/-- A head record after pin reset (R55, R58): OFF with its runs 0, the calibration and the flag kept. -/
def Head.pinReset (h : Head) : Head := { h with state := .off, missRun := 0, restoreRun := 0 }

/-- A die slot after pin reset or soft reset (R93): IN_SERVICE and STAGED become READY, and LOADING becomes
FAULTY with fault number 0. -/
def DieSlot.resetKept (d : DieSlot) : DieSlot :=
  match d.state with
  | .inService => { d with state := .ready }
  | .staged => { d with state := .ready }
  | .loading =>
    { d with state := .faulty, faultNumber := some 0, faultStrand := none, faultEntry := none }
  | _ => d

/-- Every block at its pin reset values: those of power-on reset, but for the head calibrations (R58), the
curves (R71) and the die records (R93), which are kept. -/
def pinReset (straps : BitVec 3) (s : State) : State :=
  let t := powerOnReset straps s
  { t with
    heads := updAll s.heads Head.pinReset
    tmu := { t.tmu with curves := s.tmu.curves }
    dlb := { t.dlb with slots := updAll s.dlb.slots DieSlot.resetKept } }

/-- PIN_RESET (R93). -/
def execPinReset (straps : BitVec 3) (s : State) : Host.Outcome State Fault Refusal :=
  .next (pinReset straps s)

/-! ## Soft reset (R179) -/

/-- A port record after soft reset (R16): a RESUME notice is pending where the port was HOLDING; a notice being
sent is cut short (R15). -/
def Port.softReset (p : Port) : Port :=
  { p with
    counter := 0, hold := .flowing, notice := if p.hold = .holding then some .resume else none,
    transmitting := none }

/-- A head record after soft reset (R55): FENCED becomes MEASURE, the runs are 0. -/
def Head.softReset (h : Head) : Head :=
  { h with
    state := if h.state = .fenced then .measure else h.state, missRun := 0, restoreRun := 0 }

/-- The trigger generator after soft reset (R35): schedules emptied, outputs RELEASED. -/
def Trigger.softReset (t : Trigger) : Trigger :=
  { t with
    last := none, deferred := false, timer := none
    outputs := updAll t.outputs fun o => { o with schedule := [], release := none } }

/-- The die library after soft reset (R93). -/
def Library.softReset (configured : Bool) (d : Library) : Library :=
  { service := if configured then .idle else .unconfigured
    slots := updAll d.slots DieSlot.resetKept }

/-- The length map after soft reset (R131): every ring empty, M0 at M − D_ss. -/
def LengthMap.softReset (station : Nat) (l : LengthMap) : LengthMap :=
  { geometry := l.geometry.map fun g => { g with origin := (station : Int) - g.stationToSaw }
    rings := .replicate 4 [] }

/-- The event and mark unit after soft reset (R146); the filtered levels are sampled as the reset ends. -/
def Events.softReset (e : Events) : Events :=
  { e with
    lines := updAll e.lines fun l => { l with candidate := none }
    stillness := .halted, pending := [], blanking := [] }

/-- A strand's pieces and gate after soft reset (R159): the next piece number is kept. -/
def StrandPieces.softReset (p : StrandPieces) : StrandPieces :=
  { openPiece := none, closing := [], next := p.next, gate := none }

/-- The egress queues and the scheduler after soft reset (R166). -/
def Egress.softReset (e : Egress) : Egress :=
  { a := [], b := [], c := [], reserved := false, mode := e.mode, quotas := e.quotas, turn := .a,
    turnCount := 0 }

/-- The management agent after soft reset (R180). -/
def Management.softReset (m : Management) : Management :=
  { mode := m.mode, fixed := m.fixed, bound := if m.mode = .fixed then some m.fixed else none,
    input := [], window := .cleared, alarms := 0, reset := .none }

/-- Every block at its soft reset values. -/
def softReset (s : State) : State :=
  { s with
    inReset := true
    ports := updAll s.ports Port.softReset
    pool := { s.pool with held := [] }
    upl := { s.upl with sending := none }
    pos := { s.pos with latch := false }
    trg := s.trg.softReset
    heads := updAll s.heads Head.softReset
    sau := { s.sau with slots := .replicate 16 .empty, voidList := [] }
    tmu := { s.tmu with strands := .replicate 4 .none }
    dlb := s.dlb.softReset s.lmp.geometry.isSome
    gev := { queue := [], current := none }
    lmp := s.lmp.softReset s.pos.station
    emu := s.emu.softReset
    pcu := { s.pcu with strands := updAll s.pcu.strands StrandPieces.softReset }
    egs := s.egs.softReset
    mga := s.mga.softReset
    ctb := .cleared s.ctb.filters }

/-- A soft reset takes effect once the RESET response has been sent (R179). -/
def takeSoftReset (s : State) : State :=
  if s.mga.reset = .due ∧ s.inReset = false then softReset s else s

/-- SOFT_RESET (R179). -/
def execSoftReset (s : State) : Host.Outcome State Fault Refusal := .next (takeSoftReset s)

/-! ## The end of a reset (R20, R132, R163, R164) -/

/-- The decoder phase and the filtered levels sampled from the inputs (R20, R132). -/
def sampleInputs (s : State) : State :=
  { s with
    inReset := false
    pos := { s.pos with phase := s.pins.enc }
    emu := { s.emu with lines := Vector.ofFn fun i =>
      { time := (s.emu.lines[i]).time, level := s.pins.level (lineAt i), candidate := none } } }

/-- A reset in progress ends: the inputs are sampled, and kept UNSENT entries get their chance (R163, R164). -/
def endReset (s : State) : State :=
  if s.inReset then backlogRaiseTest (queuePieceReports (sampleInputs s)) else s

/-- RESET_END (R132). -/
def execResetEnd (s : State) : Host.Outcome State Fault Refusal := .next (endReset s)

end Sys2Proof.Machine
end

