-- ==== Sys2Proof/Machine/Tables.lean ====
section
/-! DEFINITION. The tables and the table window (spec/05 5.2, 5.3, R57, R58, R68, R70, R174): records,
TABLE_OPEN, TABLE_DATA, TABLE_READ. -/

namespace Sys2Proof.Machine

/-! ## Targets (R77, R174) -/

/-- A target as the table, number, part and strand fields name it (R174); none where a field is outside its
values, which check 1 of R77 refuses with BAD_VALUE. -/
def targetOf (table number part strand : Nat) : Option Target :=
  match table with
  | 1 => if part = 0 ∧ strand = 0 then some .heads else none
  | 2 => if part = 0 ∧ strand = 0 then (toFin 4 number).map .curve else none
  | 3 =>
    match toFin 8 number, part with
    | some k, 1 => if strand = 0 then some (.die k .header) else none
    | some k, 2 => if strand = 0 then some (.die k .marks) else none
    | some k, 3 => (toFin 4 strand).map fun t => .die k (.windows t)
    | some k, 4 => (toFin 4 strand).map fun t => .die k (.gauges t)
    | _, _ => none
  | _ => none

/-- The number of entries of a table (5.2, R77). -/
def Target.entries : Target → Nat
  | .heads => 16
  | .curve _ => 33
  | .die _ .header => 5
  | .die _ .marks => 3
  | .die _ (.windows _) => 64
  | .die _ (.gauges _) => 32

/-- The read limit of a table (R82). -/
def Target.readLimit : Target → Nat
  | .heads => 16
  | .curve _ => 33
  | .die _ .header => 5
  | .die _ .marks => 3
  | .die _ (.windows _) => 32
  | .die _ (.gauges _) => 16

/-- Checks 1 and 2 of R77 on the six argument bytes of TABLE_OPEN and TABLE_READ: the target, or the status
of the first check that fails. -/
def checkTarget (args : List Byte) : Except Status Target :=
  match targetOf (natAt args 0 1) (natAt args 1 1) (natAt args 2 1) (natAt args 3 1) with
  | none => .error .badValue
  | some t =>
    if natAt args 4 1 ≤ natAt args 5 1 ∧ natAt args 5 1 < t.entries then .ok t else .error .range

/-! ## TABLE_OPEN (R75, R77) -/

/-- The die slot of a target. -/
def Target.slot : Target → Option (Fin 8)
  | .die k _ => some k
  | _ => none

/-- A slot in service or staged is protected (R77 check 3, R91). -/
def DieState.isGuarded : DieState → Bool
  | .inService => true
  | .staged => true
  | _ => false

/-- A die slot opened for loading (R77): an EMPTY slot first receives the blank record (R75); the fault fields
are kept (5.1). -/
def DieSlot.load (d : DieSlot) : DieSlot :=
  { d with state := .loading, record := if d.state = .empty then .blank else d.record }

/-- The window opened on a target (R77). -/
def openWindow (t : Target) (first last : Nat) (s : State) : State :=
  let s := setWindow { target := some t, pointer := first, last := last, overrun := 0 } s
  match t.slot with
  | some k => s.modDie k DieSlot.load
  | none => s

/-- TABLE_OPEN executed (R77), the former window being closed already. -/
def tableOpen : Execution := fun r s =>
  match checkTarget r.args with
  | .error st => refuse st s
  | .ok t =>
    let first := natAt r.args 4 1
    let last := natAt r.args 5 1
    if t.slot.any fun k => (s.dlb.slots[k]).state.isGuarded then refuse .inUse s
    else answer (byteOf first ++ byteOf last) (openWindow t first last s)

/-- TABLE_OPEN (R77). -/
def execTableOpen (s : State) : Host.Outcome State Fault Refusal :=
  .next (takeRequest (isCommand 6) (sizeIs 6) tableOpen s)

/-! ## Entries as they are written (R57, R68, R75, R174) -/

/-- What the judging of one table entry gives: refused with a status, or stored, clamped or not. -/
inductive EntryOutcome
  | refused (st : Status)
  | stored (clamped : Bool) (s : State)

/-- The calibration fields of a HEADS record (4.1, R174). -/
structure HeadFields where
  strand : Nat
  cosine : Int
  sine : Int
  x0 : Int
  y0 : Int
  minQuality : Nat
  deriving DecidableEq, Repr

/-- The calibration fields a HEADS record carries. -/
def headFields (bs : List Byte) : HeadFields :=
  { strand := natAt bs 0 1, cosine := intAt bs 1 2, sine := intAt bs 3 2, x0 := intAt bs 5 3,
    y0 := intAt bs 8 3, minQuality := natAt bs 11 1 }

/-- An offset lies in −1 000 000 to 1 000 000 (R57). -/
def offsetFits (x : Int) : Bool := decide (-1000000 ≤ x) && decide (x ≤ 1000000)

/-- The rotation is close enough to scale 1.0 (R57): |c² + s² − 268 435 456| ≤ 1 048 576. -/
def rotationFits (c s : Int) : Bool :=
  let d := c * c + s * s - 268435456
  decide (-1048576 ≤ d) && decide (d ≤ 1048576)

/-- A HEADS entry for head h judged by the checks of R57, in order, and stored. -/
def writeHead (h : Fin 16) (bs : List Byte) (s : State) : EntryOutcome :=
  let f := headFields bs
  if (s.heads[h]).state = .measure ∨ (s.heads[h]).state = .fenced then .refused .inUse
  else
    match toFin 4 f.strand with
    | none => .refused .badValue
    | some t =>
      if offsetFits f.x0 && offsetFits f.y0 && rotationFits f.cosine f.sine then
        .stored false (s.modHead h fun r =>
          { r with
            cal := { strand := t, cosine := f.cosine, sine := f.sine, x0 := f.x0, y0 := f.y0,
                     minQuality := f.minQuality }
            written := true })
      else .refused .badValue

/-- A CURVE entry i of curve n stored (R68): a value above 8191 is stored as 8191. -/
def writeCurve (n : Fin 4) (i : Fin 33) (bs : List Byte) (s : State) : EntryOutcome :=
  let v := natAt bs 0 2
  .stored (decide (8191 < v))
    { s with tmu := { s.tmu with
      curves := upd s.tmu.curves n (Curve.write (!inspecting s) i (min 8191 v)) } }

/-- The code a byte of a record carries for a listed set, if it is one (R75). -/
def codeAt {α : Type} (l : List α) (bs : List Byte) (offset : Nat) : Option α := l[natAt bs offset 1]?

/-- Yes and no as codes (R173). -/
def yesNo : List Bool := [false, true]

/-- The curve numbers. -/
def curveIds : List (Fin 4) := List.finRange 4

/-- The die entry a record carries (5.2, R174); none when a code is outside its set (R75). -/
def dieEntryOf (bs : List Byte) : Option DieEntry :=
  match codeAt curveIds bs 21, codeAt consequenceList bs 28 with
  | some curve, some nodata =>
    some
      { tag := BitVec.ofNat 32 (natAt bs 0 4)
        name := Vector.ofFn fun i => BitVec.ofNat 8 (natAt bs (4 + i.val) 1)
        strandCount := natAt bs 20 1
        curve := curve
        defaultTemp := natAt bs 22 2
        blankLength := natAt bs 24 2
        scrapConfirm := natAt bs 26 1
        holdConfirm := natAt bs 27 1
        nodata := nodata
        scrapLimit := natAt bs 29 1
        sampleCompare := BitVec.ofNat 16 (natAt bs 30 2)
        sampleMask := BitVec.ofNat 16 (natAt bs 32 2) }
  | _, _ => none

/-- The strand descriptor a record carries (5.2, R174). -/
def strandDescOf (bs : List Byte) : StrandDesc :=
  { heads := BitVec.ofNat 16 (natAt bs 0 2), windowCount := natAt bs 2 1, gaugeCount := natAt bs 3 1 }

/-- The mark window a record carries (5.2, R174). -/
def markWindowOf (bs : List Byte) : Option MarkWindow :=
  (codeAt consequenceList bs 8).map fun c =>
    { startOff := intAt bs 0 4, endOff := intAt bs 4 4, consequence := c }

/-- The window a record carries (5.2, R174); a minimum point count of 0 is stored as 1 (R75). -/
def windowOf (bs : List Byte) : Window :=
  { xLo := intAt bs 0 4, xHi := intAt bs 4 4, yLo := intAt bs 8 4, yHi := intAt bs 12 4,
    heads := BitVec.ofNat 16 (natAt bs 16 2), minCount := max 1 (natAt bs 18 1) }

/-- The gauge a record carries (5.2, R174); none when a code is outside its set (R75). -/
def gaugeOf (bs : List Byte) : Option Gauge :=
  match codeAt yesNo bs 0, codeAt kindList bs 1, codeAt axisList bs 2, codeAt pickList bs 4,
      codeAt pickList bs 6, codeAt consequenceList bs 27, codeAt yesNo bs 28 with
  | some enabled, some kind, some axis, some pickA, some pickB, some severity, some thermal =>
    some
      { enabled := enabled, kind := kind, axis := axis, windowA := natAt bs 3 1, pickA := pickA,
        windowB := natAt bs 5 1, pickB := pickB, nominal := intAt bs 7 4, rejLo := intAt bs 11 4,
        warnLo := intAt bs 15 4, warnHi := intAt bs 19 4, rejHi := intAt bs 23 4,
        severity := severity, thermal := thermal }
  | _, _, _, _, _, _, _ => none

/-- A die record with one of its entries replaced, and whether the entry was clamped (R75); none refuses the
entry with BAD_VALUE. -/
def DieRecord.writeEntry (part : DiePart) (i : Nat) (bs : List Byte) (d : DieRecord) :
    Option (DieRecord × Bool) :=
  match part with
  | .header =>
    match i with
    | 0 => (dieEntryOf bs).map fun e => ({ d with entry := e }, false)
    | j + 1 =>
      (toFin 4 j).map fun t => ({ d with strands := upd d.strands t fun _ => strandDescOf bs }, false)
  | .marks =>
    (markWindowOf bs).map fun w =>
      (match i with
       | 0 => { d with weld := w }
       | 1 => { d with stop := w }
       | _ => { d with start := w }, false)
  | .windows t =>
    (toFin 64 i).map fun n =>
      ({ d with windows := upd d.windows t fun ws => upd ws n fun _ => windowOf bs },
        natAt bs 18 1 == 0)
  | .gauges t =>
    match gaugeOf bs, toFin 32 i with
    | some g, some n => some ({ d with gauges := upd d.gauges t fun gs => upd gs n fun _ => g }, false)
    | _, _ => none

/-- An entry of a die record judged and stored (R75). -/
def writeDie (k : Fin 8) (part : DiePart) (i : Nat) (bs : List Byte) (s : State) : EntryOutcome :=
  match (s.dlb.slots[k]).record.writeEntry part i bs with
  | some c => .stored c.2 (s.modDie k fun d => { d with record := c.1 })
  | none => .refused .badValue

/-- Entry i of a target judged by the rule of its table (R78). -/
def writeEntry (t : Target) (i : Nat) (bs : List Byte) (s : State) : EntryOutcome :=
  match t with
  | .heads =>
    match toFin 16 i with
    | some h => writeHead h bs s
    | none => .refused .badValue
  | .curve n =>
    match toFin 33 i with
    | some j => writeCurve n j bs s
    | none => .refused .badValue
  | .die k part => writeDie k part i bs s

/-! ## TABLE_DATA (R78) -/

/-- The running account of a TABLE_DATA request (R78). -/
structure DataAccount where
  stored : Nat
  refusals : Nat
  firstRefused : Option Nat
  clamped : Nat
  status : Status
  deriving DecidableEq, Repr

/-- An account to which one refused entry, at a position within the request, is added. -/
def DataAccount.refusal (position : Nat) (st : Status) (a : DataAccount) : DataAccount :=
  { a with
    refusals := a.refusals + 1
    firstRefused := a.firstRefused.or (some position)
    status := if a.status = .ok then st else a.status }

/-- One entry of a TABLE_DATA request taken at the pointer (R78). -/
def takeEntry (acc : DataAccount × State) (entry : List Byte × Nat) : DataAccount × State :=
  let (a, s) := acc
  let w := s.mga.window
  match w.target with
  | none => acc
  | some target =>
    if w.pointer ≤ w.last then
      let advance := setWindow { w with pointer := w.pointer + 1 }
      match writeEntry target w.pointer entry.1 s with
      | .refused st => (a.refusal entry.2 st, advance s)
      | .stored c s =>
        ({ a with stored := a.stored + 1, clamped := a.clamped + if c then 1 else 0 }, advance s)
    else (a, setWindow { w with overrun := satSucc 65535 w.overrun } s)

/-- The response data of TABLE_DATA (R78). -/
def DataAccount.bytes (a : DataAccount) (w : TableWindow) : List Byte :=
  byteOf a.stored ++ byteOf a.refusals ++ optional byteOf a.firstRefused ++ byteOf a.clamped ++
    byteOf w.pointer ++ beNat 2 w.overrun

/-- TABLE_DATA executed (R78). -/
def tableData : Execution := fun r s =>
  match s.mga.window.target with
  | none => refuse .state s
  | some _ =>
    let start : DataAccount := { stored := 0, refusals := 0, firstRefused := none, clamped := 0, status := .ok }
    let done := (tableRecords r.args).zipIdx.foldl takeEntry (start, s)
    ({ status := done.1.status, data := done.1.bytes done.2.mga.window }, done.2)

/-- TABLE_DATA (R78): 0 to 32 records of 40 bytes. -/
def execTableData (s : State) : Host.Outcome State Fault Refusal :=
  .next (takeRequest (isCommand 7) (sizeOfParts 40 0 32) tableData s)

/-! ## Entries as they are read (R58, R70, R82, R174) -/

/-- A record of 40 bytes (R174). -/
def record (fields : List Byte) : List Byte := padTo 40 fields

/-- The calibration fields of a HEADS record as read: 0 while the written flag is CLEAR (R58). -/
def headCalBytes (h : Head) : List Byte :=
  if h.written then
    byteOf h.cal.strand.val ++ beInt 2 h.cal.cosine ++ beInt 2 h.cal.sine ++ beInt 3 h.cal.x0 ++
      beInt 3 h.cal.y0 ++ byteOf h.cal.minQuality
  else List.replicate 12 0

/-- A HEADS record as read (R58, R174). -/
def headRecord (h : Head) : List Byte :=
  record (headCalBytes h ++ codeByte headStateList h.state ++ byteOf h.missRun ++ byteOf h.restoreRun ++
    byteOf (flagCode h.written))

/-- A CURVE record as read: pending value, in-use value, whether the entry is in the written set (R70). -/
def curveRecord (c : Curve) (i : Nat) : List Byte :=
  record (beNat 2 (curveEntry c.pending i) ++ beNat 2 (curveEntry c.inUse i) ++
    [boolByte (c.written.getLsbD i)])

/-- A die entry as read (5.2, R174). -/
def dieEntryRecord (e : DieEntry) : List Byte :=
  record (wordBytes e.tag ++ e.name.toList ++ byteOf e.strandCount ++ byteOf e.curve.val ++
    beNat 2 e.defaultTemp ++ beNat 2 e.blankLength ++ byteOf e.scrapConfirm ++ byteOf e.holdConfirm ++
    codeByte consequenceList e.nodata ++ byteOf e.scrapLimit ++ beNat 2 e.sampleCompare.toNat ++
    beNat 2 e.sampleMask.toNat)

/-- A strand descriptor as read. -/
def strandRecord (d : StrandDesc) : List Byte :=
  record (beNat 2 d.heads.toNat ++ byteOf d.windowCount ++ byteOf d.gaugeCount)

/-- A mark window as read. -/
def markRecord (w : MarkWindow) : List Byte :=
  record (beInt 4 w.startOff ++ beInt 4 w.endOff ++ codeByte consequenceList w.consequence)

/-- A window as read. -/
def windowRecord (w : Window) : List Byte :=
  record (beInt 4 w.xLo ++ beInt 4 w.xHi ++ beInt 4 w.yLo ++ beInt 4 w.yHi ++ beNat 2 w.heads.toNat ++
    byteOf w.minCount)

/-- A gauge as read. -/
def gaugeRecord (g : Gauge) : List Byte :=
  record ([boolByte g.enabled] ++ codeByte kindList g.kind ++ codeByte axisList g.axis ++
    byteOf g.windowA ++ codeByte pickList g.pickA ++ byteOf g.windowB ++ codeByte pickList g.pickB ++
    beInt 4 g.nominal ++ beInt 4 g.rejLo ++ beInt 4 g.warnLo ++ beInt 4 g.warnHi ++ beInt 4 g.rejHi ++
    codeByte consequenceList g.severity ++ [boolByte g.thermal])

/-- Entry i of a part of a die record as read. -/
def DieRecord.readEntry (part : DiePart) (i : Nat) (d : DieRecord) : List Byte :=
  match part with
  | .header =>
    match i with
    | 0 => dieEntryRecord d.entry
    | j + 1 => (toFin 4 j).elim (record []) fun t => strandRecord d.strands[t]
  | .marks =>
    markRecord (match i with
      | 0 => d.weld
      | 1 => d.stop
      | _ => d.start)
  | .windows t => (toFin 64 i).elim (record []) fun n => windowRecord (d.windows[t])[n]
  | .gauges t => (toFin 32 i).elim (record []) fun n => gaugeRecord (d.gauges[t])[n]

/-- Entry i of a table as read (R82): every field of an EMPTY slot's entries is 0. -/
def readEntry (t : Target) (i : Nat) (s : State) : List Byte :=
  match t with
  | .heads => (toFin 16 i).elim (record []) fun h => headRecord s.heads[h]
  | .curve n => curveRecord s.tmu.curves[n] i
  | .die k part =>
    let slot := s.dlb.slots[k]
    if slot.state = .empty then record [] else slot.record.readEntry part i

/-- A slot's status: its state and its three fault fields (R82). -/
def slotStatus (d : DieSlot) : List Byte :=
  codeByte dieStateList d.state ++ optional byteOf d.faultNumber ++ optional byteOf d.faultStrand ++
    optional byteOf d.faultEntry

/-- What a table read gives once, ahead of the entries (R174): the curve state or the slot status. -/
def tableStatus (t : Target) (s : State) : List Byte :=
  match t with
  | .heads => []
  | .curve n => [boolByte (s.tmu.curves[n]).filled]
  | .die k _ => slotStatus s.dlb.slots[k]

/-- TABLE_READ executed (R82): entries from the first up to the last or the read limit. -/
def tableRead : Execution := fun r s =>
  match checkTarget r.args with
  | .error st => refuse st s
  | .ok t =>
    let first := natAt r.args 4 1
    let n := min t.readLimit (natAt r.args 5 1 + 1 - first)
    answer (tableStatus t s ++ counted (fun i => readEntry t (first + i) s) (List.range n)) s

/-- TABLE_READ (R82). -/
def execTableRead (s : State) : Host.Outcome State Fault Refusal :=
  .next (takeRequest (isCommand 8) (sizeIs 6) tableRead s)

end Sys2Proof.Machine
end

