-- ==== Sys2Proof/Machine/Uplink.lean ====
section
/-! DEFINITION. The uplink: reception of requests (R18, R171), selection among the egress queues (R165),
destinations (R167) and the end of a sending (R160, R163, R179). -/

namespace Sys2Proof.Machine

/-! ## Reception (R18, R171) -/

/-- A request joins the tail of the input queue, or is dropped from a full one (R171). -/
def offerRequest (r : Request) (s : State) : State :=
  if s.mga.input.length < Config.inputQueue then
    { s with mga := { s.mga with input := s.mga.input ++ [r] } }
  else countGlobal .mgmtDropped s

/-- A frame that R1 keeps on the uplink (R18). -/
def judgeUplink (bs : List Byte) (s : State) : State :=
  let s := countPort 8 .received s
  if isRequest s.upl.frameType s.upl.station bs then
    offerRequest (requestOf bs) (countPort 8 .admitted s)
  else countPort 8 .nonScanDropped s

/-- A frame taken whole on the uplink (R18): an unsound one, or one whose last byte arrives while a reset is
in progress (R15), is discarded. -/
def receiveOnUplink (f : Frame) (s : State) : State :=
  if s.inReset || !soundFrame f then s else judgeUplink f.bytes s

/-- UPLINK_FRAME_RECEIVE (R18). -/
def execUplinkFrameReceive (frame : Frame) (s : State) : Host.Outcome State Fault Refusal :=
  .next (receiveOnUplink frame s)

/-! ## Selection (R165) -/

/-- A queue holds a frame that is not being sent; used while the uplink is idle (R165). -/
def queueHolds (s : State) : QueueId → Bool
  | .a => !s.egs.a.isEmpty
  | .b => !s.egs.b.isEmpty
  | .c => !s.egs.c.isEmpty
  | .d => s.pool.held.any HeldFrame.inQueueD

/-- Place of a queue in the order A, B, C, D. -/
def QueueId.index : QueueId → Fin 4
  | .a => 0 | .b => 1 | .c => 2 | .d => 3

/-- The next queue in the cycle A, B, C, D, A (R165). -/
def QueueId.following : QueueId → QueueId
  | .a => .b | .b => .c | .c => .d | .d => .a

/-- STRICT: the first queue that is not empty (R165). -/
def strictChoice (s : State) : Option QueueId := [QueueId.a, .b, .c, .d].find? (queueHolds s)

/-- QUOTA: the steps of R165 from a turn and its count, at most `fuel` times; the queue selected, and its turn
count after the selection. Some queue holds a frame, so five steps reach it. -/
def quotaChoice (s : State) : Nat → QueueId → Nat → Option (QueueId × Nat)
  | 0, _, _ => none
  | fuel + 1, q, n =>
    if queueHolds s q && decide (n < s.egs.quotas[q.index]) then some (q, n + 1)
    else quotaChoice s fuel q.following 0

/-- The queue the scheduler selects, and the state with the turn after the selection (R165). -/
def selectQueue (s : State) : Option (QueueId × State) :=
  match s.egs.mode with
  | .strict => (strictChoice s).map fun q => (q, s)
  | .quota =>
    (quotaChoice s 5 s.egs.turn s.egs.turnCount).map fun c =>
      (c.1, { s with egs := { s.egs with turn := c.1, turnCount := c.2 } })

/-- Where a report goes now (R167): the bound address when a binding exists, otherwise the report address. -/
def reportDest (s : State) : Address :=
  match s.mga.mode with
  | .openMode => s.upl.report
  | .first => s.mga.bound.getD s.upl.report
  | .fixed => s.mga.fixed

/-- The frame on the uplink. -/
def setSending (f : Option Sending) (s : State) : State := { s with upl := { s.upl with sending := f } }

/-- The bytes of a queue D entry as sent (R9, R19): a RAW entry as stored, a FORWARD entry re-addressed and
stamped. -/
def entryBytes (s : State) (f : HeldFrame) : List Byte :=
  match f.queueD with
  | .queued (.forward st) => forwardBytes s.upl.recorder s.upl.station st f.bytes
  | _ => f.bytes

/-- A queue D entry leaves the queue as its sending begins (R160). -/
def HeldFrame.startSending (f : HeldFrame) : HeldFrame :=
  match f.queueD with
  | .queued e => { f with queueD := .sending e }
  | _ => f

/-- The first of a queue's frames on the uplink; an empty queue gives none. -/
def sendReport (q : QueueId) (frames : List OutFrame) (s : State) : State :=
  match frames.head? with
  | none => s
  | some f => setSending (some { queue := q, bytes := outBytes (reportDest s) f }) s

/-- The head frame of a queue begins to be sent; a frame of A, B or C stays in its queue (R160). -/
def beginSending (q : QueueId) (s : State) : State :=
  match q with
  | .a => sendReport q s.egs.a s
  | .b => sendReport q s.egs.b s
  | .c => sendReport q s.egs.c s
  | .d =>
    match s.pool.held.find? HeldFrame.inQueueD with
    | none => s
    | some f =>
      setSending (some { queue := .d, bytes := entryBytes s f })
        (setHeld (changeFirst HeldFrame.inQueueD HeldFrame.startSending s.pool.held) s)

/-- The uplink, when idle and with some queue not empty, is given a frame (R19, R165). -/
def selectFrame (s : State) : State :=
  if s.inReset || s.upl.sending.isSome then s
  else
    match selectQueue s with
    | none => s
    | some c => beginSending c.1 c.2

/-- UPLINK_SELECT (R165). -/
def execUplinkSelect (s : State) : Host.Outcome State Fault Refusal := .next (selectFrame s)

/-! ## End of a sending (R19, R160, R163, R179) -/

/-- The frame answers a RESET that was executed (R179). -/
def OutFrame.answersReset (f : OutFrame) : Bool :=
  match f.content with
  | .response _ command status _ => command == 16 && status == .ok
  | _ => false

/-- Once the response of a waiting RESET has been sent, the soft reset is due and is the very next command, so
that no other event comes between (R179, log 27). -/
def noteSent (f : Option OutFrame) (s : State) : State :=
  if s.mga.reset = .waiting ∧ f.any OutFrame.answersReset then
    { s with mga := { s.mga with reset := .due }, pending := .softReset :: s.pending }
  else s

/-- The frame being sent has been sent to its end (R19): it leaves queue A, B or C, or queue D lets go of its
frame; a place freed in queue B goes to the oldest UNSENT entry (R163). -/
def endSending (s : State) : State :=
  match s.upl.sending with
  | none => s
  | some f =>
    let s := setSending none s
    match f.queue with
    | .a => noteSent s.egs.a.head? { s with egs := { s.egs with a := s.egs.a.drop 1 } }
    | .b => queuePieceReports { s with egs := { s.egs with b := s.egs.b.drop 1 } }
    | .c => { s with egs := { s.egs with c := s.egs.c.drop 1 } }
    | .d => releaseFirst HeldFrame.onWire HeldFrame.dropD s

/-- UPLINK_SEND_END (R19). -/
def execUplinkSendEnd (s : State) : Host.Outcome State Fault Refusal := .next (endSending s)

end Sys2Proof.Machine
end

