-- ==== Sys2Proof/Machine/Dispatch.lean ====
section
/-! DEFINITION. The effect of each command: one arm for each constructor of Instr. -/

namespace Sys2Proof.Machine

/-- The effect of a command on everything but the queue. -/
def exec (i : Instr) (s : State) : Host.Outcome State Fault Refusal :=
  match i with
  | .powerOnReset straps => Sys2Proof.Machine.execPowerOnReset straps s
  | .pinReset straps => Sys2Proof.Machine.execPinReset straps s
  | .softReset => Sys2Proof.Machine.execSoftReset s
  | .resetEnd => Sys2Proof.Machine.execResetEnd s
  | .headFrameReceive port frame => Sys2Proof.Machine.execHeadFrameReceive port frame s
  | .noticeSendStart port => Sys2Proof.Machine.execNoticeSendStart port s
  | .noticeSendEnd port => Sys2Proof.Machine.execNoticeSendEnd port s
  | .uplinkFrameReceive frame => Sys2Proof.Machine.execUplinkFrameReceive frame s
  | .uplinkSelect => Sys2Proof.Machine.execUplinkSelect s
  | .uplinkSendEnd => Sys2Proof.Machine.execUplinkSendEnd s
  | .encoderChange a b => Sys2Proof.Machine.execEncoderChange a b s
  | .tminExpiry => Sys2Proof.Machine.execTminExpiry s
  | .periodTimerExpiry => Sys2Proof.Machine.execPeriodTimerExpiry s
  | .pulseStart port => Sys2Proof.Machine.execPulseStart port s
  | .pulseRelease port => Sys2Proof.Machine.execPulseRelease port s
  | .fragmentTake => Sys2Proof.Machine.execFragmentTake s
  | .slotDeadlineExpiry slot => Sys2Proof.Machine.execSlotDeadlineExpiry slot s
  | .evaluationComplete => Sys2Proof.Machine.execEvaluationComplete s
  | .tmuTakeTemp => Sys2Proof.Machine.execTmuTakeTemp s
  | .tempExpiry strand => Sys2Proof.Machine.execTempExpiry strand s
  | .stillnessExpiry => Sys2Proof.Machine.execStillnessExpiry s
  | .eventLineChange line level => Sys2Proof.Machine.execEventLineChange line level s
  | .filterTimeExpiry line => Sys2Proof.Machine.execFilterTimeExpiry line s
  | .gateRelease strand => Sys2Proof.Machine.execGateRelease strand s
  | .identify => Sys2Proof.Machine.execIdentify s
  | .getConfig => Sys2Proof.Machine.execGetConfig s
  | .setGeometry => Sys2Proof.Machine.execSetGeometry s
  | .setHeadState => Sys2Proof.Machine.execSetHeadState s
  | .tableOpen => Sys2Proof.Machine.execTableOpen s
  | .tableData => Sys2Proof.Machine.execTableData s
  | .tableRead => Sys2Proof.Machine.execTableRead s
  | .selectDie => Sys2Proof.Machine.execSelectDie s
  | .deactivate => Sys2Proof.Machine.execDeactivate s
  | .flush => Sys2Proof.Machine.execFlush s
  | .readCells => Sys2Proof.Machine.execReadCells s
  | .readPieces => Sys2Proof.Machine.execReadPieces s
  | .read => Sys2Proof.Machine.execRead s
  | .readClear => Sys2Proof.Machine.execReadClear s
  | .clearScope => Sys2Proof.Machine.execClearScope s
  | .clearAll => Sys2Proof.Machine.execClearAll s
  | .freeze => Sys2Proof.Machine.execFreeze s
  | .unfreeze => Sys2Proof.Machine.execUnfreeze s
  | .clearAlarms => Sys2Proof.Machine.execClearAlarms s
  | .reset => Sys2Proof.Machine.execReset s
  | .writePortRole => Sys2Proof.Machine.execWritePortRole s
  | .writeForwardMode => Sys2Proof.Machine.execWriteForwardMode s
  | .writeDecimationFactor => Sys2Proof.Machine.execWriteDecimationFactor s
  | .writeReserve => Sys2Proof.Machine.execWriteReserve s
  | .writeWaterMark => Sys2Proof.Machine.execWriteWaterMark s
  | .writeMirrorSource => Sys2Proof.Machine.execWriteMirrorSource s
  | .writeStationAddress => Sys2Proof.Machine.execWriteStationAddress s
  | .writeRecorderAddress => Sys2Proof.Machine.execWriteRecorderAddress s
  | .writeFrameTypeValue => Sys2Proof.Machine.execWriteFrameTypeValue s
  | .writeReverseLimit => Sys2Proof.Machine.execWriteReverseLimit s
  | .writeTriggerMode => Sys2Proof.Machine.execWriteTriggerMode s
  | .writePitch => Sys2Proof.Machine.execWritePitch s
  | .writeTmin => Sys2Proof.Machine.execWriteTmin s
  | .writeTp => Sys2Proof.Machine.execWriteTp s
  | .writeSchedulingMode => Sys2Proof.Machine.execWriteSchedulingMode s
  | .writeBindingMode => Sys2Proof.Machine.execWriteBindingMode s
  | .writeFixedAddress => Sys2Proof.Machine.execWriteFixedAddress s
  | .writeConfigItem => Sys2Proof.Machine.execWriteConfigItem s
  | .badCommand => Sys2Proof.Machine.execBadCommand s

end Sys2Proof.Machine
end

