-- ==== Sys2Proof/Safety.lean ====
section
/-! DEFINITION. The words statements about the machine are made of: when a request is executed and what its
response adds, which row a request is taken as, and the laws the spec gives the machine's stores. -/

namespace Sys2Proof.Machine

/-! ## Frames (spec/01) -/

/-- A frame is taken: it is sound (R1) and no reset is in progress (R15). -/
abbrev Arrives (s : State) (f : Frame) : Prop :=
  f.fcs = crc32 f.bytes ∧ 60 ≤ f.bytes.length ∧ f.bytes.length ≤ 1536 ∧ s.inReset = false

/-- The state once port p has counted a frame as received and learned its source (R1). -/
def learnt (p : Fin 8) (f : Frame) (s : State) : State :=
  (countPort p.castSucc .received s).modPort p fun x =>
    { x with learned := some (BitVec.ofNat 48 (natAt f.bytes 6 6)) }

/-- The SCAN frame that port p stores under its admission mode (R3), and whether STAMP replaced a differing head
id; none where MATCH drops the frame. -/
def storedScan (s : State) (p : Fin 8) (bytes : List Byte) : Option (List Byte × Bool) :=
  match (s.ports[p]).admission with
  | .any => some (bytes, false)
  | .matchId => if natAt bytes 18 1 = (s.ports[p]).defaultHead.val then some (bytes, false) else none
  | .stamp =>
    some (bytes.set 18 (BitVec.ofNat 8 (s.ports[p]).defaultHead.val),
      decide (natAt bytes 18 1 ≠ (s.ports[p]).defaultHead.val))

/-- A frame on port p is a non-scan frame (R2): it is not a sound frame of the kind the port's role takes. -/
def nonScanOn (s : State) (p : Fin 8) (bytes : List Byte) : Bool :=
  match (s.ports[p]).role with
  | .off => false
  | .head => !soundScan s.upl.frameType bytes
  | .pyro => !soundTemp s.upl.frameType bytes

/-- The state once a frame has been granted its blocks (R4–R6): it is held, counted as admitted, and counted as
forwarded when queue D holds it. -/
def entered (f : HeldFrame) (s : State) : State :=
  let t := countPort f.port.castSucc .admitted { s with pool := { s.pool with held := s.pool.held ++ [f] } }
  if f.queueD = .none then t else countPort f.port.castSucc .forwarded t

/-- The uplink sends a frame of queue A, B or C (R19, R167): a response to its requester, a report to the bound
address when a binding exists and otherwise to the report address. -/
def sending (s : State) (q : QueueId) (f : OutFrame) : State :=
  let report :=
    if s.mga.mode = .fixed then s.mga.fixed
    else if s.mga.mode = .first then s.mga.bound.getD s.upl.report
    else s.upl.report
  { s with upl := { s.upl with sending := some { queue := q, bytes := outBytes report f } } }

/-! ## Counts and triggers (spec/02) -/

/-- The new pair is the next of the cycle under NORMAL, the preceding one under INVERTED (R20). -/
abbrev StepsForward (s : State) (pair : Levels) : Prop :=
  (s.pos.sense = .normal ∧ pair.place = (s.pos.phase.place + 1) % 4) ∨
    (s.pos.sense = .inverted ∧ s.pos.phase.place = (pair.place + 1) % 4)

/-- The new pair is the preceding one of the cycle under NORMAL, the next under INVERTED (R20). -/
abbrev StepsBack (s : State) (pair : Levels) : Prop :=
  (s.pos.sense = .normal ∧ s.pos.phase.place = (pair.place + 1) % 4) ∨
    (s.pos.sense = .inverted ∧ pair.place = (s.pos.phase.place + 1) % 4)

/-- No trigger has fired since reset, or Tmin has passed since the last (R27). -/
abbrev Spaced (s : State) : Prop := s.trg.last.all (fun t => decide (t + s.trg.tmin ≤ s.now)) = true

/-! ## Requests at the management agent (spec/11) -/

/-- r is at the head of the input queue, with rest behind it, and the agent takes it now (R171): no reset is
in progress, no RESET waits, and queue A's frames plus any reserved place come to fewer than 16. -/
abbrev Taken (s : State) (r : Request) (rest : List Request) : Prop :=
  s.mga.input = r :: rest ∧ s.inReset = false ∧ s.mga.reset = .none ∧
    s.egs.a.length + (if s.egs.reserved then 1 else 0) < 16

/-- The binding lets a request from this source be executed (R170). -/
abbrev Bound (s : State) (source : Address) : Prop :=
  s.mga.mode = .openMode ∨
    (s.mga.mode = .first ∧ (s.mga.bound = none ∨ s.mga.bound = some source)) ∨
    (s.mga.mode = .fixed ∧ s.mga.fixed = source)

/-- r is taken now and the binding lets it be executed. -/
abbrev Ready (s : State) (r : Request) (rest : List Request) : Prop := Taken s r rest ∧ Bound s r.source

/-- The state once r has been taken (R161, R170, R171): it has left the input queue, a place of queue A is
reserved, and under FIRST with no bound address its source has become the bound address. -/
def claimed (s : State) (r : Request) (rest : List Request) : State :=
  { s with
    mga := { s.mga with
      input := rest
      bound := if s.mga.mode = .first ∧ s.mga.bound = none then some r.source else s.mga.bound }
    egs := { s.egs with reserved := true } }

/-- The state in which r, once taken, is executed (R79): an open table window has closed unless the command
is GET_CONFIG or TABLE_DATA. -/
def begun (s : State) (r : Request) (rest : List Request) : State :=
  if r.command = 3 ∨ r.command = 7 then claimed s r rest else closeWindow (claimed s r rest)

/-- The response of r joins the tail of queue A in its reserved place (R161, R173). -/
def answered (r : Request) (st : Status) (data : List Byte) (t : State) : State :=
  { t with egs := { t.egs with
      a := t.egs.a ++
        [{ frameType := t.upl.frameType, source := t.upl.station, dest := some r.source,
           content := .response r.tag r.command st data }]
      reserved := false } }

/-- A request of a command, with arguments of a sound size for it (11.3). -/
abbrev Asks (r : Request) (command : Byte) (size : Nat) : Prop :=
  r.command = command ∧ r.args.length = size

/-- The byte at an offset of a request's arguments, as a number. -/
def Request.arg (r : Request) (offset : Nat) : Nat := natAt r.args offset 1

/-- A SET_CONFIG request of one entry: an item, an index and the eight bytes of a value (R175). -/
abbrev Writes (r : Request) (item index : Nat) (value : List Byte) : Prop :=
  r.command = 2 ∧ item < 65536 ∧ index < 256 ∧ value.length = 8 ∧
    r.args = beNat 2 item ++ beNat 1 index ++ value

/-- The response data of a SET_CONFIG request of one entry (R175): one result, of the item, its index, the
status, the value now held, and whatever the item's rule adds. -/
def resultData (item index : Nat) (st : Status) (held more : List Byte) : List Byte :=
  1 :: (beNat 2 item ++ beNat 1 index ++ [st.code] ++ held ++ more)

/-- The state after a one-entry SET_CONFIG request that was answered with this status and held value, t being
the state after the write. -/
def written (r : Request) (item index : Nat) (st : Status) (held : List Byte) (t : State) : State :=
  answered r st (resultData item index st held []) t

/-- The row of the command table that a SET_CONFIG request is taken as (log 6). -/
def writeRow (r : Request) : Instr :=
  if soundSetConfig r then
    match firstItem r with
    | 1 => .writePortRole
    | 5 => .writeForwardMode
    | 6 => .writeDecimationFactor
    | 7 => .writeReserve
    | 8 => .writeWaterMark
    | 9 => .writeWaterMark
    | 11 => .writeMirrorSource
    | 13 => .writeStationAddress
    | 14 => .writeRecorderAddress
    | 16 => .writeFrameTypeValue
    | 19 => .writeReverseLimit
    | 20 => .writeTriggerMode
    | 21 => .writePitch
    | 22 => .writeTmin
    | 23 => .writeTp
    | 35 => .writeSchedulingMode
    | 37 => .writeBindingMode
    | 38 => .writeFixedAddress
    | _ => .writeConfigItem
  else .writeConfigItem

/-- The row of the command table that a COUNTERS request is taken as (log 6). -/
def counterRow (r : Request) : Instr :=
  if r.args.length = 3 then
    match r.arg 0 with
    | 1 => .readClear
    | 2 => .clearScope
    | 3 => .clearAll
    | 4 => .freeze
    | 5 => .unfreeze
    | _ => .read
  else .read

/-- The row of the command table that a request is taken as (11.3). -/
def rowOf (r : Request) : Instr :=
  match r.command.toNat with
  | 1 => .identify
  | 2 => writeRow r
  | 3 => .getConfig
  | 4 => .setGeometry
  | 5 => .setHeadState
  | 6 => .tableOpen
  | 7 => .tableData
  | 8 => .tableRead
  | 9 => .selectDie
  | 10 => .deactivate
  | 11 => .flush
  | 12 => .readCells
  | 13 => .readPieces
  | 14 => counterRow r
  | 15 => .clearAlarms
  | 16 => .reset
  | _ => .badCommand

/-- The rows of the command table that take a request. -/
def managementRows : List Instr :=
  [.identify, .getConfig, .setGeometry, .setHeadState, .tableOpen, .tableData, .tableRead, .selectDie,
    .deactivate, .flush, .readCells, .readPieces, .read, .readClear, .clearScope, .clearAll, .freeze,
    .unfreeze, .clearAlarms, .reset, .writePortRole, .writeForwardMode, .writeDecimationFactor,
    .writeReserve, .writeWaterMark, .writeMirrorSource, .writeStationAddress, .writeRecorderAddress,
    .writeFrameTypeValue, .writeReverseLimit, .writeTriggerMode, .writePitch, .writeTmin, .writeTp,
    .writeSchedulingMode, .writeBindingMode, .writeFixedAddress, .writeConfigItem, .badCommand]

/-- The argument sizes of 11.3 that a command takes; a command number without a row takes every size. -/
def sizeSound (command : Byte) (len : Nat) : Bool :=
  match command.toNat with
  | 1 => len == 0
  | 2 => len % 11 == 0 && decide (11 ≤ len) && decide (len ≤ 88)
  | 3 => len % 3 == 0 && decide (3 ≤ len) && decide (len ≤ 24)
  | 4 => len == 10
  | 5 => len == 2
  | 6 => len == 6
  | 7 => len % 40 == 0 && decide (len ≤ 1280)
  | 8 => len == 6
  | 9 => len == 1
  | 10 => len == 0
  | 11 => len == 0
  | 12 => len == 6
  | 13 => len == 2
  | 14 => len == 3
  | 15 => len == 0
  | 16 => len == 0
  | _ => true

/-! ## The laws of the stores -/

/-- Every ring keeps its canonical form (R115). -/
abbrev RingLaw (s : State) : Prop := ∀ t : Fin 4, (s.lmp.rings[t]).wf = true

/-- The egress queues and the input queue within their capacities, and no place of queue A reserved between
two commands (R160, R161, R171). -/
abbrev QueueLaw (s : State) : Prop :=
  s.egs.a.length ≤ 16 ∧ s.egs.b.length ≤ 32 ∧ s.egs.c.length ≤ 64 ∧ s.mga.input.length ≤ 4 ∧
    s.egs.reserved = false

/-- The bounded lists within their sizes: void list, pending marks, blanking windows, piece logs (3.1, 8.5,
8.7, 9.6). -/
abbrev ListLaw (s : State) : Prop :=
  s.sau.voidList.length ≤ 16 ∧ s.emu.pending.length ≤ 16 ∧ s.emu.blanking.length ≤ 4 ∧
    ∀ t : Fin 4, s.pcu.log.countP (·.completed.strand = t) ≤ 16

/-- The law of the library (R74), with what keeps it: a slot serves just while the part is INSPECTING, slots
are STAGED only then, the part is UNCONFIGURED just while no geometry is set, and a slot is LOADING just while
the open window has it as target. -/
abbrev LibraryLaw (s : State) : Prop :=
  (∀ j k : Fin 8, (s.dlb.slots[j]).state = .inService → (s.dlb.slots[k]).state = .inService → j = k) ∧
  (∀ j k : Fin 8, (s.dlb.slots[j]).state = .staged → (s.dlb.slots[k]).state = .staged → j = k) ∧
  ((∃ k : Fin 8, (s.dlb.slots[k]).state = .inService) ↔ s.dlb.service = .inspecting) ∧
  ((∃ k : Fin 8, (s.dlb.slots[k]).state = .staged) → s.dlb.service = .inspecting) ∧
  (s.dlb.service = .unconfigured ↔ s.lmp.geometry = none) ∧
  (∀ k : Fin 8, (s.dlb.slots[k]).state = .loading ↔ s.mga.window.target.any (·.slot = some k) = true)

/-- The law of the pool (R10, R12): the eight reserves come to at most 1536 blocks, and the blocks drawn from
the shared pool never exceed 4096 less the reserves. -/
abbrev PoolLaw (s : State) : Prop :=
  ((List.finRange 8).map fun p => (s.ports[p]).reserve).sum ≤ 1536 ∧
    ((List.finRange 8).map fun p => useCount s.pool.held p - (s.ports[p]).reserve).sum ≤
      4096 - ((List.finRange 8).map fun p => (s.ports[p]).reserve).sum

/-- The law of the accumulator (R21, R22), with the ranges of its settings (R24) and of M. -/
abbrev PositionLaw (s : State) : Prop :=
  1 ≤ s.pos.scale ∧ s.pos.scale ≤ 1048575 ∧ 1 ≤ s.pos.reverseLimit ∧ s.pos.reverseLimit ≤ 65535 ∧
    -((s.pos.reverseLimit : Int) * 65536) ≤ s.pos.acc ∧ s.pos.acc ≤ 65535 ∧ s.pos.station ≤ 2 ^ 48 - 1

end Sys2Proof.Machine
end

