-- ==== Sys2Proof/WellFormed.lean ====
section
/-! DEFINITION. The check of a command's operands: the port, section slot or strand it names is one the
part has (1.3: head ports P0–P7; 3.1: sixteen section slots; 1.7: strands 0–3). -/

namespace Sys2Proof

/-- The instance a command names exists. Every other operand has no ill-formed value: a frame of any
bytes and any frame check sequence can arrive (R1 says what becomes of it). -/
def Instr.wellFormed : Instr → Bool
  | .headFrameReceive port _ => decide (port < 8)
  | .noticeSendStart port => decide (port < 8)
  | .noticeSendEnd port => decide (port < 8)
  | .pulseStart port => decide (port < 8)
  | .pulseRelease port => decide (port < 8)
  | .slotDeadlineExpiry slot => decide (slot < 16)
  | .tempExpiry strand => decide (strand < 4)
  | .gateRelease strand => decide (strand < 4)
  | .powerOnReset _ => true
  | .pinReset _ => true
  | .softReset => true
  | .resetEnd => true
  | .uplinkFrameReceive _ => true
  | .uplinkSelect => true
  | .uplinkSendEnd => true
  | .encoderChange _ _ => true
  | .tminExpiry => true
  | .periodTimerExpiry => true
  | .fragmentTake => true
  | .evaluationComplete => true
  | .tmuTakeTemp => true
  | .stillnessExpiry => true
  | .eventLineChange _ _ => true
  | .filterTimeExpiry _ => true
  | .identify => true
  | .getConfig => true
  | .setGeometry => true
  | .setHeadState => true
  | .tableOpen => true
  | .tableData => true
  | .tableRead => true
  | .selectDie => true
  | .deactivate => true
  | .flush => true
  | .readCells => true
  | .readPieces => true
  | .read => true
  | .readClear => true
  | .clearScope => true
  | .clearAll => true
  | .freeze => true
  | .unfreeze => true
  | .clearAlarms => true
  | .reset => true
  | .writePortRole => true
  | .writeForwardMode => true
  | .writeDecimationFactor => true
  | .writeReserve => true
  | .writeWaterMark => true
  | .writeMirrorSource => true
  | .writeStationAddress => true
  | .writeRecorderAddress => true
  | .writeFrameTypeValue => true
  | .writeReverseLimit => true
  | .writeTriggerMode => true
  | .writePitch => true
  | .writeTmin => true
  | .writeTp => true
  | .writeSchedulingMode => true
  | .writeBindingMode => true
  | .writeFixedAddress => true
  | .writeConfigItem => true
  | .badCommand => true

end Sys2Proof
end

