-- ==== Sys2Proof/Certificates/Slice0/Obligations.lean ====
section
/-! DEFINITION. The statements for the provers: sixty properties of the model, each with the rules of spec/ that
it rests on. -/

open Sys2Proof Sys2Proof.Machine

/-! ## The step and its queue -/

/-- For every command c and state s whose queue is c followed by rest, step s is exec c on s with the queue
rest. The queue is the model’s own (first in, first out). -/
def Obligations.StepRunsTheFrontCommand : Prop :=
  ∀ (c : Instr) (rest : List Instr) (s : State),
    s.pending = c :: rest → step s = exec c { s with pending := rest }

/-- On an empty queue a step queues the commands that are due now, time standing still, so that a pulse whose
start time is the firing itself is not late; with none due it adds 1 to the present time and queues the
commands then due (the model’s own tick, log 1 and log 2). A temperature expiry, a slot deadline, a pulse
start, a pulse release, a gate release, the stillness expiry, a filter time expiry and a period timer’s
expiry are each among the commands due just when their time has been reached; Tmin’s expiry just when a
deferred trigger’s Tmin has passed; SOFT_RESET just when the soft reset is due. -/
def Obligations.IdleStepsPassTimeAndQueueExpiries : Prop :=
  (∀ s : State, s.pending = [] →
     (dueCommands s ≠ [] → step s = .next { s with pending := dueCommands s }) ∧
     (dueCommands s = [] →
       step s =
         .next { s with now := s.now + 1, pending := dueCommands { s with now := s.now + 1 } })) ∧
  (∀ s : State,
     (∀ (t : Fin 4) (temp taken expiry : Nat), s.tmu.strands[t] = .fresh temp taken expiry →
       (Instr.tempExpiry t.val ∈ dueCommands s ↔ expiry ≤ s.now)) ∧
     (∀ i : Fin 16, Instr.slotDeadlineExpiry i.val ∈ dueCommands s ↔
       (s.sau.slots[i]).state = .collecting ∧ (s.sau.slots[i]).deadline ≤ s.now) ∧
     (∀ (p : Fin 8) (start : Nat) (later : List Nat), (s.trg.outputs[p]).schedule = start :: later →
       (Instr.pulseStart p.val ∈ dueCommands s ↔ start ≤ s.now)) ∧
     (∀ (p : Fin 8) (time : Nat), (s.trg.outputs[p]).release = some time →
       (Instr.pulseRelease p.val ∈ dueCommands s ↔ time ≤ s.now)) ∧
     (∀ (t : Fin 4) (time : Nat), (s.pcu.strands[t]).gate = some time →
       (Instr.gateRelease t.val ∈ dueCommands s ↔ time ≤ s.now)) ∧
     (∀ expiry : Nat, s.emu.stillness = .running expiry →
       (Instr.stillnessExpiry ∈ dueCommands s ↔ expiry ≤ s.now)) ∧
     (∀ (l : EventLine) (c : Candidate), (s.emu.lines[lineIndex l]).candidate = some c →
       (Instr.filterTimeExpiry l ∈ dueCommands s ↔ c.start + c.time ≤ s.now)) ∧
     (Instr.tminExpiry ∈ dueCommands s ↔ s.trg.deferred = true ∧ Spaced s ∧ s.trg.mode ≠ .off) ∧
     (∀ expiry : Nat, s.trg.timer = some expiry → s.trg.mode = .time → s.dlb.service = .inspecting →
       (Instr.periodTimerExpiry ∈ dueCommands s ↔ expiry ≤ s.now)) ∧
     (Instr.softReset ∈ dueCommands s ↔ s.mga.reset = .due ∧ s.inReset = false))

/-- For every command and state: a well-formed command answers a next state, never a fault and never a refusal;
a command that names a port above 7, a section slot above 15 or a strand above 3 ends in the fault
noSuchInstance (the model’s choice, log 4). -/
def Obligations.EveryWellFormedCommandCompletes : Prop :=
  ∀ (c : Instr) (s : State),
    (c.wellFormed = true → ∃ t, exec c s = .next t) ∧
    (c.wellFormed = false → exec c s = .fault .noSuchInstance)

/-! ## Resets -/

/-- State.reset holds, for every port, the uplink, position tracker, trigger generator, heads, section slots,
temperature unit, die library, evaluator, length map, event unit, piece unit, egress queues, management
agent and counters, the values of the reset rules (R16, R17, R24, R35, R55, R67, R71, R93, R111, R131, R146,
R159, R166, R180, R185). The strap value, the filtered levels and the decoder phase, which the pins give,
are 0 and low (the model’s choice, log 8). The statement says nothing of the head calibrations and die
records, whose contents the spec leaves undefined (log 11). Every entry of both copies of the curves is 0,
the fault fields of every die slot are none. A section slot’s emptied record has its numbers 0, its head
entries NONE with nothing received and no accumulators (the model’s form of an emptied record, log 42). -/
def Obligations.ResetStateHoldsTheStatedValues : Prop :=
  (∀ p : Fin 8, ∃ h : Fin 16, h.val = p.val ∧ State.reset.ports[p] =
    { role := .off, admission := .any, defaultHead := h, nonScan := .drop, forwardMode := .off,
      decimation := 4, reserve := 64, high := 160, low := 96, counter := 0, hold := .flowing,
      notice := none, learned := none, transmitting := none }) ∧
  State.reset.mirror = none ∧ State.reset.pool = { held := [], evictionLevel := 256 } ∧
  State.reset.upl =
    { station := 0x0A4E56248000#48, recorder := 0xFFFFFFFFFFFF#48, report := 0xFFFFFFFFFFFF#48,
      frameType := 0x9C61#16, straps := 0, sending := none } ∧
  State.reset.pos =
    { sense := .normal, scale := 6554, reverseLimit := 500, acc := 0, station := 0, latch := false,
      phase := ⟨false, false⟩ } ∧
  State.reset.trg =
    { mode := .off, pitch := 20, tmin := 250, period := 1000, seq := 0, grid := 0, last := none,
      deferred := false, timer := none,
      outputs := Vector.replicate 8 { phaseDelay := 0, schedule := [], release := none } } ∧
  (∀ h : Fin 16, (State.reset.heads[h]).state = .off ∧ (State.reset.heads[h]).missRun = 0 ∧
    (State.reset.heads[h]).restoreRun = 0 ∧ (State.reset.heads[h]).written = false) ∧
  (∀ i : Fin 16, (State.reset.sau.slots[i]).state = .free ∧
    (∀ h : Fin 16, (State.reset.sau.slots[i]).heads[h] =
      { participation := .out, count := none, received := 0, contribution := .nothing, released := false }) ∧
    (∀ t : Fin 4, (State.reset.sau.slots[i]).windows[t] = [] ∧ (State.reset.sau.slots[i]).temps[t] =
      { temp := 0, stale := false, byDefault := false, shrink := 0 }) ∧
    (State.reset.sau.slots[i]).seq = 0 ∧ (State.reset.sau.slots[i]).station = 0 ∧
    (State.reset.sau.slots[i]).cell = 0 ∧ (State.reset.sau.slots[i]).openTime = 0 ∧
    (State.reset.sau.slots[i]).deadline = 0) ∧ State.reset.sau.voidList = [] ∧
  State.reset.sau.timeout = 2000 ∧ State.reset.sau.fenceLimit = 8 ∧ State.reset.sau.restoreCount = 32 ∧
  State.reset.tmu.strands = Vector.replicate 4 .none ∧ State.reset.tmu.holdTime = 500 ∧
  State.reset.tmu.curves = Vector.replicate 4
    { pending := Vector.replicate 33 0, inUse := Vector.replicate 33 0, written := 0 } ∧
  State.reset.dlb.service = .unconfigured ∧ (∀ k : Fin 8, (State.reset.dlb.slots[k]).state = .empty ∧
    (State.reset.dlb.slots[k]).faultNumber = none ∧ (State.reset.dlb.slots[k]).faultStrand = none ∧
    (State.reset.dlb.slots[k]).faultEntry = none) ∧
  State.reset.gev = { queue := [], current := none } ∧
  State.reset.lmp = { geometry := none, rings := Vector.replicate 4 [] } ∧
  State.reset.emu =
    { lines := Vector.replicate 4 { time := 50, level := false, candidate := none }, stillTime := 1500,
      stillness := .halted, pending := [], blanking := [], proofEnable := false, proofCompare := 0,
      proofMask := 0, proofStrands := 0xF#4 } ∧
  State.reset.pcu =
    { strands := Vector.replicate 4 { openPiece := none, closing := [], next := 1, gate := none },
      log := [], holdTime := 2000 } ∧
  State.reset.egs =
    { a := [], b := [], c := [], reserved := false, mode := .quota, quotas := #v[6, 4, 2, 1],
      turn := .a, turnCount := 0 } ∧
  State.reset.mga =
    { mode := .openMode, fixed := 0, bound := none, input := [], window := { target := none, pointer := 0, last := 0, overrun := 0 },
      alarms := 0, reset := .none } ∧
  State.reset.ctb =
    { ports := Vector.replicate 9 (Vector.replicate 11 0), heads := Vector.replicate 16 (Vector.replicate 7 0),
      strands := Vector.replicate 4 (Vector.replicate 14 0), global := Vector.replicate 18 0,
      frozen := false, filters := Vector.replicate 2 { enabled := false, head := 0 } } ∧
  State.reset.pending = []

/-- POWER_ON_RESET answers the reset values of every block (R16, R17, R24, R35, R55, R58, R67, R71, R93, R111,
R131, R146, R159, R166, R180, R185) with the straps sampled into the station address; the present time, the
pins and the queue of commands stay, and a reset is in progress. The head calibrations and die records,
which R58 and R93 call undefined, are those of State.reset (the model’s choice, log 11). PIN_RESET answers
the same state except that each head keeps its calibration and written flag, the curves are kept, and each
die slot is kept with IN_SERVICE and STAGED become READY and LOADING become FAULTY with fault number 0 and
no fault strand or entry. -/
def Obligations.PowerOnAndPinResetsRestoreTheirBlocks : Prop :=
  (∀ (straps : BitVec 3) (s : State),
     exec (.powerOnReset straps) s =
       .next { State.reset with
         now := s.now
         inReset := true
         pins := s.pins
         upl := { State.reset.upl with
           station := 0x0A4E56248000#48 + straps.setWidth 48, straps := straps }
         pos := { State.reset.pos with phase := s.pins.enc }
         emu := { State.reset.emu with
           lines := Vector.ofFn fun i => { time := 50, level := s.pins.level (lineAt i), candidate := none } }
         pending := s.pending }) ∧
  (∀ (straps : BitVec 3) (s : State), ∃ t u,
     exec (.pinReset straps) s = .next t ∧ exec (.powerOnReset straps) s = .next u ∧
     { t with heads := u.heads, tmu := { t.tmu with curves := u.tmu.curves },
              dlb := { t.dlb with slots := u.dlb.slots } } = u ∧
     (∀ h : Fin 16, t.heads[h] = { s.heads[h] with state := .off, missRun := 0, restoreRun := 0 }) ∧
     t.tmu.curves = s.tmu.curves ∧
     (∀ k : Fin 8, t.dlb.slots[k] =
       let d := s.dlb.slots[k]
       if d.state = .inService ∨ d.state = .staged then { d with state := .ready }
       else if d.state = .loading then
         { d with state := .faulty, faultNumber := some 0, faultStrand := none, faultEntry := none }
       else d))

/-- With a RESET response fully sent and no other reset in progress, SOFT_RESET answers the state whose every
field the statement gives: a HOLDING port becomes FLOWING with a RESUME notice pending, a FENCED head
becomes MEASURE, section slots, void list, temperature records, evaluator, rings, pending marks, blanking
windows, pieces, gates, queues, the input queue, the window, the alarm flags and the counters are emptied,
pulse schedules and filter candidates dropped, serving and staged dies READY, a LOADING one FAULTY with
fault number 0; settings, M, S, the geometry with M0 = M − D_ss, the piece log and the piece numbers are
kept. That the soft reset is a command of its own once due is the model’s choice (log 27). -/
def Obligations.SoftResetTakesEffectOnceDue : Prop :=
  ∀ s : State, s.mga.reset = .due → s.inReset = false → ∃ t,
    exec .softReset s = .next t ∧
    (∀ p : Fin 8, t.ports[p] =
      { s.ports[p] with
        counter := 0, hold := .flowing, transmitting := none
        notice := if (s.ports[p]).hold = .holding then some .resume else none }) ∧
    (∀ h : Fin 16, t.heads[h] =
      { s.heads[h] with
        state := if (s.heads[h]).state = .fenced then .measure else (s.heads[h]).state
        missRun := 0, restoreRun := 0 }) ∧
    (∀ p : Fin 8, t.trg.outputs[p] = { s.trg.outputs[p] with schedule := [], release := none }) ∧
    (∀ l : Fin 4, t.emu.lines[l] = { s.emu.lines[l] with candidate := none }) ∧
    (∀ n : Fin 4, t.pcu.strands[n] =
      { openPiece := none, closing := [], next := (s.pcu.strands[n]).next, gate := none }) ∧
    (∀ k : Fin 8, t.dlb.slots[k] =
      let d := s.dlb.slots[k]
      if d.state = .inService ∨ d.state = .staged then { d with state := .ready }
      else if d.state = .loading then
        { d with state := .faulty, faultNumber := some 0, faultStrand := none, faultEntry := none }
      else d) ∧
    t = { s with
      inReset := true
      ports := t.ports
      pool := { s.pool with held := [] }
      upl := { s.upl with sending := none }
      pos := { s.pos with latch := false }
      trg := { s.trg with last := none, deferred := false, timer := none, outputs := t.trg.outputs }
      heads := t.heads
      sau := { s.sau with slots := Vector.replicate 16 .empty, voidList := [] }
      tmu := { s.tmu with strands := Vector.replicate 4 .none }
      dlb :=
        { service := if s.lmp.geometry.isSome then .idle else .unconfigured, slots := t.dlb.slots }
      gev := { queue := [], current := none }
      lmp :=
        { geometry := s.lmp.geometry.map fun g =>
            { g with origin := (s.pos.station : Int) - g.stationToSaw },
          rings := Vector.replicate 4 [] }
      emu := { s.emu with
        lines := t.emu.lines, stillness := .halted, pending := [], blanking := [] }
      pcu := { s.pcu with strands := t.pcu.strands }
      egs := { s.egs with a := [], b := [], c := [], reserved := false, turn := .a, turnCount := 0 }
      mga := { s.mga with
        bound := if s.mga.mode = .fixed then some s.mga.fixed else none
        input := [], window := { target := none, pointer := 0, last := 0, overrun := 0 }, alarms := 0
        reset := .none }
      ctb := .cleared s.ctb.filters }

/-- With a reset in progress, RESET_END ends it: the decoder phase becomes the encoder levels, each filtered
level the level of its line with no candidate; then piece reports are queued from the kept log, and
PIECE_BACKLOG is raised with the strand of the oldest entry left UNSENT, if one is. With every log entry
SENT the queueing does no more than clear the PIECE_BACKLOG flag. With no reset in progress nothing changes
(log 3). -/
def Obligations.ResetEndSamplesTheInputs : Prop :=
  ∀ s : State,
    (s.inReset = true →
      let u : State := { s with
        inReset := false
        pos := { s.pos with phase := s.pins.enc }
        emu := { s.emu with
          lines := Vector.ofFn fun i =>
            { time := (s.emu.lines[i]).time, level := s.pins.level (lineAt i), candidate := none } } }
      let v := queuePieceReports u
      exec .resetEnd s = .next (backlogRaiseTest v) ∧
      (∀ e : LogEntry, v.pcu.log.find? (fun x => !x.sent) = some e →
        backlogRaiseTest v = raiseAlarm .pieceBacklog e.completed.strand.val v) ∧
      ((∀ e ∈ v.pcu.log, e.sent = true) → backlogRaiseTest v = v) ∧
      ((∀ e ∈ s.pcu.log, e.sent = true) →
        v = { u with mga := { u.mga with alarms := u.mga.alarms &&& ~~~64#9 } })) ∧
    (s.inReset = false → exec .resetEnd s = .next s)

/-- After POWER_ON_RESET, PIN_RESET and SOFT_RESET the input queue is empty, no request waits to reset the part,
no place of queue A is reserved, the table window is closed with pointer, last entry and overrun count 0, a
slot it held LOADING is FAULTY with fault number 0 unless the reset is a power-on reset, and all nine alarm
flags are clear. After the first two the binding mode is OPEN, the fixed address 0 and the bound address
none; SOFT_RESET keeps mode and fixed address and sets the bound address to the fixed address under FIXED
and to none otherwise. The counters are all 0 and RUNNING. SOFT_RESET is taken once due (the model’s choice,
log 27). -/
def Obligations.EveryResetLeavesTheAgentIdle : Prop :=
  ∀ (straps : BitVec 3) (s : State) (c : Instr),
    c = .powerOnReset straps ∨ c = .pinReset straps ∨
      (c = .softReset ∧ s.mga.reset = .due ∧ s.inReset = false) →
    ∃ t, exec c s = .next t ∧ t.mga.input = [] ∧ t.mga.reset = .none ∧ t.egs.reserved = false ∧
      t.mga.window = { target := none, pointer := 0, last := 0, overrun := 0 } ∧ t.mga.alarms = 0 ∧
      (c ≠ .powerOnReset straps → ∀ k : Fin 8, (s.dlb.slots[k]).state = .loading →
        (t.dlb.slots[k]).state = .faulty ∧ (t.dlb.slots[k]).faultNumber = some 0 ∧
          (t.dlb.slots[k]).faultStrand = none ∧ (t.dlb.slots[k]).faultEntry = none ∧
          (t.dlb.slots[k]).record = (s.dlb.slots[k]).record) ∧
      (c ≠ .softReset → t.mga.mode = .openMode ∧ t.mga.fixed = 0 ∧ t.mga.bound = none) ∧
      (c = .softReset → t.mga.mode = s.mga.mode ∧ t.mga.fixed = s.mga.fixed ∧
        t.mga.bound = if s.mga.mode = .fixed then some s.mga.fixed else none) ∧
      t.ctb.frozen = false ∧ t.ctb.ports = Vector.replicate 9 (Vector.replicate 11 0) ∧
      t.ctb.heads = Vector.replicate 16 (Vector.replicate 7 0) ∧
      t.ctb.strands = Vector.replicate 4 (Vector.replicate 14 0) ∧
      t.ctb.global = Vector.replicate 18 0

/-! ## Frames on the head ports and the uplink -/

/-- A frame with a bad frame check sequence, of a length outside 60 to 1536 bytes, or arriving while a reset is
in progress changes nothing, on every head port and on the uplink. A sound frame on an OFF port is counted
as received and its source learned, and nothing else changes. On a HEAD port a SCAN frame whose head id
differs under MATCH is counted ADMIT_MISMATCH, and one of a head in OFF is counted HEAD_OFF; a non-scan
frame under DROP on a port that is not the mirror source is counted as dropped; each then changes nothing
else. A frame is a sound SCAN or TEMP frame just when its type, version, kind, length field and the
structure of its kind are as R2 says; its head id, fragment index and count, scan sequence number, points
and readings are read at the offsets of 1.7, most significant byte first, signed fields in two’s complement. -/
def Obligations.FramesNotTakenUpAreCountedByTheirCause : Prop :=
  (∀ (p : Fin 8) (f : Frame) (s : State),
     f.fcs ≠ crc32 f.bytes ∨ f.bytes.length < 60 ∨ 1536 < f.bytes.length ∨ s.inReset = true →
     exec (.headFrameReceive p.val f) s = .next s ∧ exec (.uplinkFrameReceive f) s = .next s) ∧
  (∀ (p : Fin 8) (f : Frame) (s : State), Arrives s f → (s.ports[p]).role = .off →
     exec (.headFrameReceive p.val f) s = .next (learnt p f s)) ∧
  (∀ (p : Fin 8) (f : Frame) (s : State), Arrives s f →
     ((s.ports[p]).role = .head → soundScan s.upl.frameType f.bytes = true →
       ((s.ports[p]).admission = .matchId → scanHead f.bytes ≠ (s.ports[p]).defaultHead.val →
         exec (.headFrameReceive p.val f) s = .next (countPort p.castSucc .admitMismatch (learnt p f s))) ∧
       (∀ stored replaced, storedScan s p f.bytes = some (stored, replaced) →
         (s.heads[admittedHead stored]).state = .off →
         exec (.headFrameReceive p.val f) s = .next (countPort p.castSucc .headOff (learnt p f s)))) ∧
     (nonScanOn s p f.bytes = true → s.mirror ≠ some p → (s.ports[p]).nonScan = .drop →
       exec (.headFrameReceive p.val f) s = .next (countPort p.castSucc .nonScanDropped (learnt p f s)))) ∧
  (∀ bs : List Byte,
     let num (offset width : Nat) : Nat := natAt bs offset width
     let ours (frameType : BitVec 16) (kind length : Nat) : Prop :=
       num 12 2 = frameType.toNat ∧ num 14 1 = 1 ∧ num 15 1 = kind ∧ num 16 2 = length ∧ length + 14 ≤ bs.length
     (∀ frameType : BitVec 16, soundScan frameType bs = true ↔
       ours frameType 1 (11 + 5 * num 23 2) ∧ num 18 1 ≤ 15 ∧ 1 ≤ num 20 1 ∧ num 20 1 ≤ 4 ∧ num 19 1 < num 20 1 ∧
         num 23 2 ≤ 280) ∧
     (∀ frameType : BitVec 16, soundTemp frameType bs = true ↔
       ours frameType 2 (5 + 4 * num 18 1) ∧ 1 ≤ num 18 1 ∧ num 18 1 ≤ 4 ∧ ∀ j < num 18 1, num (19 + 4 * j) 1 ≤ 3) ∧
     (scanHead bs = num 18 1 ∧ (num 18 1 ≤ 15 → (admittedHead bs).val = num 18 1)) ∧
     (scanIndex bs = num 19 1 ∧ scanCount bs = num 20 1 ∧ scanSeq bs = BitVec.ofNat 16 (num 21 2)) ∧
     (scanPointList bs = (List.range (num 23 2)).map fun i =>
       { u := intAt bs (25 + 5 * i) 2, v := num (27 + 5 * i) 2, q := num (29 + 5 * i) 1 }) ∧
     tempReadings bs = (List.range (num 18 1)).map fun j =>
       { strand := num (19 + 4 * j) 1, valid := decide (num (20 + 4 * j) 1 % 2 = 1), temp := num (21 + 4 * j) 2 }) ∧
  (∀ (bs : List Byte) (offset : Nat),
     natAt bs offset 0 = 0 ∧
     (∀ k : Nat, ∀ h : offset + k < bs.length,
       natAt bs offset (k + 1) = natAt bs offset k * 256 + (bs[offset + k]).toNat) ∧
     (∀ k : Nat, offset + k ≤ bs.length →
       intAt bs offset k = if 2 * natAt bs offset k < 256 ^ k then (natAt bs offset k : Int)
         else natAt bs offset k - (256 ^ k : Nat)))

/-- A SCAN frame that passed its port’s admission, of a head in LISTEN, MEASURE or FENCED: with a holder it is
granted its blocks, held, counted and forwarded by its entry, the decimation counter stepped and the pool
checks made, or it is dropped as NO_BUFFER with the pool checks; without a holder it is counted as admitted
and steps the counter. Its entry is RAW on the mirror source, where the counter stays; otherwise none under
OFF, FORWARD under ALL, and under DECIMATED FORWARD just when the counter increased by one equals N, the
counter then becoming 0. A FORWARD entry is stamped with the position at its admission: the strand of the
head’s calibration, or 0 with the written flag CLEAR; the cell under the station and the rest of the
material coordinate within it, both 0 when MAP_VALID is clear; the low 32 bits of M; MAP_VALID set unless
UNCONFIGURED, INSPECTING set while inspecting, HEAD_STAMPED set when the admission replaced a differing head
id. The cell number is an exact one held modulo 2^32 (the model’s reading, log 36). That the pool checks
come with the frame in queue D and counted is the model’s reading (log 15). Under the pool law a grant of b
blocks on a port of use count u and reserve r fits just when max(0, u + b − r) − max(0, u − r) is at most
the free shared blocks, 4096 less the reserves and less max(0, u − r) of every port; a held frame of n bytes
counts n/128 blocks, rounded up, on its port. -/
def Obligations.AdmittedScanFramesTakeBlocks : Prop :=
  (∀ (p : Fin 8) (f : Frame) (s : State) (stored : List Byte) (replaced : Bool),
     Arrives s f → (s.ports[p]).role = .head → soundScan s.upl.frameType f.bytes = true →
     storedScan s p f.bytes = some (stored, replaced) →
     (s.heads[admittedHead stored]).state ≠ .off →
     let u := learnt p f s
     let entry := scanEntry p (admittedHead stored) replaced u
     let frame : HeldFrame :=
       { port := p, bytes := stored, ptu := decide ((s.heads[admittedHead stored]).state ≠ .listen),
         tmu := false, queueD := entry }
     (frame.isHeld = true → grantFits p (ceilDiv stored.length 128) u = true →
       exec (.headFrameReceive p.val f) s =
         .next (poolChecks p (advanceDecimation p (entered frame u)))) ∧
     (frame.isHeld = true → grantFits p (ceilDiv stored.length 128) u = false →
       exec (.headFrameReceive p.val f) s =
         .next (poolChecks p (countPort p.castSucc .noBuffer u))) ∧
     (frame.isHeld = false →
       exec (.headFrameReceive p.val f) s =
         .next (advanceDecimation p (countPort p.castSucc .admitted u)))) ∧
  (∀ (p : Fin 8) (h : Fin 16) (replaced : Bool) (s : State),
     (s.mirror = some p →
       scanEntry p h replaced s = .queued .raw ∧ advanceDecimation p s = s) ∧
     (s.mirror ≠ some p →
       ((s.ports[p]).forwardMode = .off →
         scanEntry p h replaced s = .none ∧ (advanceDecimation p s).ports = s.ports) ∧
       ((s.ports[p]).forwardMode = .all →
         scanEntry p h replaced s = .queued (.forward (stampOf h replaced s)) ∧
           (advanceDecimation p s).ports = s.ports) ∧
       ((s.ports[p]).forwardMode = .decimated →
         ((s.ports[p]).counter + 1 = (s.ports[p]).decimation →
           scanEntry p h replaced s = .queued (.forward (stampOf h replaced s)) ∧
             ((advanceDecimation p s).ports[p]).counter = 0) ∧
         ((s.ports[p]).counter + 1 ≠ (s.ports[p]).decimation →
           scanEntry p h replaced s = .none ∧
             ((advanceDecimation p s).ports[p]).counter = (s.ports[p]).counter + 1)))) ∧
  (∀ (h : Fin 16) (replaced : Bool) (s : State),
     let x := stampOf h replaced s
     ((s.heads[h]).written = true → x.strand = (s.heads[h]).cal.strand) ∧
     ((s.heads[h]).written = false → x.strand = 0) ∧
     (∀ g : Geometry, s.lmp.geometry = some g → s.dlb.service ≠ .unconfigured → 0 < g.cellLength →
       let material : Int := s.pos.station - g.origin
       x.cell = BitVec.ofInt 32 (material / g.cellLength) ∧
       (x.residue : Int) = material - g.cellLength * (material / g.cellLength) ∧
       x.residue < g.cellLength) ∧
     (s.lmp.geometry = none ∨ s.dlb.service = .unconfigured → x.cell = 0 ∧ x.residue = 0) ∧
     x.station = BitVec.ofNat 32 s.pos.station ∧
     (x.mapValid = true ↔ s.dlb.service ≠ .unconfigured) ∧
     (x.inspecting = true ↔ s.dlb.service = .inspecting) ∧
     x.headStamped = replaced) ∧
  (∀ (s : State) (p : Fin 8) (b : Nat), PoolLaw s →
     let blocks (f : HeldFrame) : Nat := (f.bytes.length + 127) / 128
     let used (i : Fin 8) : Int := ((s.pool.held.filter fun f => decide (f.port = i)).map blocks).sum
     let reserve (i : Fin 8) : Int := (s.ports[i]).reserve
     let drawn (i : Fin 8) : Int := max 0 (used i - reserve i)
     let total (f : Fin 8 → Int) : Int := ((List.finRange 8).map f).sum
     let free : Int := 4096 - total reserve - total drawn
     (freeShared s : Int) = free ∧ 0 ≤ free ∧
     (grantFits p b s = true ↔ max 0 (used p + b - reserve p) - drawn p ≤ free) ∧
     ∀ (f : HeldFrame) (i : Fin 8),
       (useCount (s.pool.held ++ [f]) i : Int) = used i + if f.port = i then (blocks f : Int) else 0)

/-- A sound TEMP frame on a PYRO port is held for the temperature unit, and for queue D as a RAW entry when the
port is the mirror source; a non-scan frame on the mirror source or under UPLINK is held for queue D as a
RAW entry. Each is granted its blocks, or dropped and counted NO_BUFFER, and the pool checks follow, with
the frame in queue D (the model’s reading, log 15). -/
def Obligations.TempAndNonScanFramesTakeBlocks : Prop :=
  ∀ (p : Fin 8) (f : Frame) (s : State), Arrives s f →
    let u := learnt p f s
    let temp : HeldFrame :=
      { port := p, bytes := f.bytes, ptu := false, tmu := true,
        queueD := if s.mirror = some p then .queued .raw else .none }
    let raw : HeldFrame :=
      { port := p, bytes := f.bytes, ptu := false, tmu := false, queueD := .queued .raw }
    ((s.ports[p]).role = .pyro → soundTemp s.upl.frameType f.bytes = true →
      exec (.headFrameReceive p.val f) s =
        .next (poolChecks p
          (if grantFits p (ceilDiv f.bytes.length 128) u then entered temp u
           else countPort p.castSucc .noBuffer u))) ∧
    (nonScanOn s p f.bytes = true → s.mirror = some p ∨ (s.ports[p]).nonScan = .uplink →
      exec (.headFrameReceive p.val f) s =
        .next (poolChecks p
          (if grantFits p (ceilDiv f.bytes.length 128) u then entered raw u
           else countPort p.castSucc .noBuffer u)))

/-- The flow-control check of a port makes it HOLDING with a HOLD raised when its use count has reached the high
water mark, FLOWING with a RESUME raised when it has fallen to the low one; raising a notice withdraws a
pending opposite one; an OFF port is left. The eviction check ends with the free shared blocks at the
eviction level or with no entry in queue D, leaves the frames that the fragment and temperature units hold
with their bytes in their order, and changes nothing when the level is met already or queue D is empty.
While the level is not met the oldest entry goes: EVICTED is counted on its port, its frame stays with
another holder or leaves the pool with the flow-control check of its port, and the check goes on from there. -/
def Obligations.PoolChecksRaiseNoticesAndEvict : Prop :=
  (∀ (p : Fin 8) (s : State),
     let x := s.ports[p]
     let u := useCount s.pool.held p
     let raised (n : Notice) : Option Notice := if x.notice = none ∨ x.notice = some n then some n else none
     flowControlCheck p s =
       s.modPort p fun _ =>
         if x.role = .off then x
         else if x.hold = .flowing ∧ x.high ≤ u then { x with hold := .holding, notice := raised .hold }
         else if x.hold = .holding ∧ u ≤ x.low then { x with hold := .flowing, notice := raised .resume }
         else x) ∧
  (∀ s : State,
     (s.pool.evictionLevel ≤ freeShared (evictionCheck s) ∨
       (evictionCheck s).pool.held.all (fun f => !f.inQueueD) = true) ∧
     ((evictionCheck s).pool.held.filter (fun f => f.ptu || f.tmu)).map (fun f => (f.port, f.bytes, f.ptu, f.tmu)) =
       (s.pool.held.filter (fun f => f.ptu || f.tmu)).map (fun f => (f.port, f.bytes, f.ptu, f.tmu)) ∧
     (s.pool.evictionLevel ≤ freeShared s → evictionCheck s = s)) ∧
  (∀ s : State,
     ((∀ f ∈ s.pool.held, f.inQueueD = false) → evictionCheck s = s) ∧
     (∀ (before after : List HeldFrame) (f : HeldFrame), s.pool.held = before ++ f :: after →
       (∀ x ∈ before, x.inQueueD = false) → f.inQueueD = true → freeShared s < s.pool.evictionLevel →
       let without (l : List HeldFrame) : State :=
         countPort f.port.castSucc .evicted { s with pool := { s.pool with held := before ++ l ++ after } }
       evictionCheck s = evictionCheck
         (if f.ptu = true ∨ f.tmu = true then without [{ f with queueD := .none }]
          else flowControlCheck f.port (without []))))

/-- With a notice pending, the transmitter idle and no reset in progress, NOTICE_SEND_START sends the HOLD frame
to the learned head address, or the broadcast address when none is learned, counts HOLD or RESUME sent, and
the notice is no longer pending; otherwise it changes nothing (log 3). NOTICE_SEND_END leaves the
transmitter idle. The HOLD frame is destination, the station address as source, the frame type value,
version 1, kind 03h, length 5, the hold flag, 1 for HOLD and 0 for RESUME, and padding of zeros to 60 bytes. -/
def Obligations.NoticesAreSentOneAtATime : Prop :=
  (∀ (p : Fin 8) (s : State),
     (∀ n : Notice, (s.ports[p]).notice = some n → (s.ports[p]).transmitting = none → s.inReset = false →
       exec (.noticeSendStart p.val) s =
         .next (countPort p.castSucc (if n = .hold then .holdSent else .resumeSent)
           (s.modPort p fun x =>
             { x with
               notice := none
               transmitting := some
                 { notice := n
                   bytes := noticeBytes (x.learned.getD 0xFFFFFFFFFFFF#48) s.upl.station s.upl.frameType n } }))) ∧
     ((s.ports[p]).notice = none ∨ (s.ports[p]).transmitting ≠ none ∨ s.inReset = true →
       exec (.noticeSendStart p.val) s = .next s) ∧
     exec (.noticeSendEnd p.val) s = .next (s.modPort p fun x => { x with transmitting := none })) ∧
  (∀ (dest source : Address) (frameType : BitVec 16) (n : Notice),
     let bytes (k v : Nat) : List Byte := (List.range k).map fun i => BitVec.ofNat 8 (v / 256 ^ (k - 1 - i))
     noticeBytes dest source frameType n =
       bytes 6 dest.toNat ++ bytes 6 source.toNat ++ bytes 2 frameType.toNat ++ [1, 3] ++ bytes 2 5 ++
         [if n = .hold then 1 else 0] ++ List.replicate 41 0)

/-- A sound frame on the uplink is counted as received. Addressed to the station address, of the frame type
value, version 1, kind 04h and a sound length of at least 7, it is counted as admitted and its request joins
the tail of the input queue, or is dropped and counted MGMT_DROPPED when four wait. Every other frame is
counted as non-scan dropped. Nothing else changes. -/
def Obligations.UplinkRequestsJoinTheInputQueue : Prop :=
  ∀ (f : Frame) (s : State), Arrives s f →
    let u := countPort 8 .received s
    let request := natAt f.bytes 0 6 = s.upl.station.toNat ∧ natAt f.bytes 12 2 = s.upl.frameType.toNat ∧
      natAt f.bytes 14 1 = 1 ∧ 7 ≤ natAt f.bytes 16 2 ∧ natAt f.bytes 16 2 + 14 ≤ f.bytes.length ∧
      natAt f.bytes 15 1 = 4
    (request → s.mga.input.length < 4 →
      exec (.uplinkFrameReceive f) s =
        let v := countPort 8 .admitted u
        .next { v with mga := { v.mga with input := v.mga.input ++
          [{ source := BitVec.ofNat 48 (natAt f.bytes 6 6), tag := BitVec.ofNat 16 (natAt f.bytes 18 2),
             command := BitVec.ofNat 8 (natAt f.bytes 20 1),
             args := field f.bytes 21 (natAt f.bytes 16 2 - 7) }] } }) ∧
    (request → 4 ≤ s.mga.input.length →
      exec (.uplinkFrameReceive f) s = .next (countGlobal .mgmtDropped (countPort 8 .admitted u))) ∧
    (¬ request → exec (.uplinkFrameReceive f) s = .next (countPort 8 .nonScanDropped u))

/-! ## The egress of the uplink -/

/-- With the uplink idle and no reset in progress: under STRICT the frame of the first queue of A, B, C, D that
is not empty begins to be sent. Under QUOTA the turn’s queue sends, the turn count increased by 1, while it
holds a frame and its count is below its quota; otherwise the turn passes to the first queue after it in the
cycle that holds a frame, the turn’s own queue last, which sends with count 1. -/
def Obligations.SelectionFollowsTheSchedulingMode : Prop :=
  (∀ s : State, s.inReset = false → s.upl.sending = none → s.egs.mode = .strict →
     (∀ f rest, s.egs.a = f :: rest → exec .uplinkSelect s = .next (sending s .a f)) ∧
     (∀ f rest, s.egs.a = [] → s.egs.b = f :: rest → exec .uplinkSelect s = .next (sending s .b f)) ∧
     (∀ f rest, s.egs.a = [] → s.egs.b = [] → s.egs.c = f :: rest →
       exec .uplinkSelect s = .next (sending s .c f)) ∧
     (s.egs.a = [] → s.egs.b = [] → s.egs.c = [] → exec .uplinkSelect s = .next (beginSending .d s))) ∧
  (∀ s : State, s.inReset = false → s.upl.sending = none → s.egs.mode = .quota →
     (∀ q : Fin 4, 1 ≤ s.egs.quotas[q]) →
     let turned (q : QueueId) (n : Nat) : State := { s with egs := { s.egs with turn := q, turnCount := n } }
     let holds := queueHolds s
     let q0 := s.egs.turn
     let q1 := q0.following
     let q2 := q1.following
     let q3 := q2.following
     let keeps := holds q0 = true ∧ s.egs.turnCount < s.egs.quotas[q0.index]
     (keeps → exec .uplinkSelect s = .next (beginSending q0 (turned q0 (s.egs.turnCount + 1)))) ∧
     (¬ keeps → holds q1 = true → exec .uplinkSelect s = .next (beginSending q1 (turned q1 1))) ∧
     (¬ keeps → holds q1 = false → holds q2 = true →
       exec .uplinkSelect s = .next (beginSending q2 (turned q2 1))) ∧
     (¬ keeps → holds q1 = false → holds q2 = false → holds q3 = true →
       exec .uplinkSelect s = .next (beginSending q3 (turned q3 1))) ∧
     (¬ keeps → holds q1 = false → holds q2 = false → holds q3 = false → holds q0 = true →
       exec .uplinkSelect s = .next (beginSending q0 (turned q0 1))))

/-- What begins to be sent is the head frame of queue A, B or C, addressed to its requester or to the report
destination that the binding gives, and left in its queue; or the oldest entry of queue D, which leaves the
queue while its frame is still held, as stored when RAW and re-addressed when FORWARD: the recorder address,
the station address, the bytes as stored from the type field to the last one that the length field gives,
without padding, and then the twelve stamp bytes: strand, flags (bit 0 MAP_VALID, bit 1 INSPECTING, bit 2
HEAD_STAMPED), residue, cell, station coordinate, most significant byte first. A frame of queue A, B or C is
its destination, source and frame type value, version 1, kind 05h for a response and 06h for a report, the
length from the common header to the end of the body, the body, and zeros to 60 bytes. A response holds tag,
command, status code and data; a report its type, 01h PIECE, 02h EVENT, 03h SECTION, 04h ALARM, and the
fields of 1.7 in their order, widths and codes (the counts, offsets and lengths of a piece by their low four
bytes, log 40). When the addresses of a queued frame are fixed is the model’s reading (log 25). -/
def Obligations.SendingBeginsWithTheHeadOfTheQueue : Prop :=
  (∀ s : State,
     (∀ f rest, s.egs.a = f :: rest → beginSending .a s = sending s .a f) ∧
     (∀ f rest, s.egs.b = f :: rest → beginSending .b s = sending s .b f) ∧
     (∀ f rest, s.egs.c = f :: rest → beginSending .c s = sending s .c f) ∧
     (∀ (before after : List HeldFrame) (f : HeldFrame) (e : DEntry),
       s.pool.held = before ++ f :: after → before.all (fun x => !x.inQueueD) = true →
       f.queueD = .queued e →
       beginSending .d s =
         { s with
           pool := { s.pool with held := before ++ { f with queueD := .sending e } :: after }
           upl := { s.upl with
             sending := some
               { queue := .d
                 bytes := match e with
                   | .raw => f.bytes
                   | .forward st => forwardBytes s.upl.recorder s.upl.station st f.bytes } } })) ∧
  (∀ (dest source : Address) (x : Stamp) (bs : List Byte) (high low : Byte),
     bs[16]? = some high → bs[17]? = some low →
     let length := 256 * high.toNat + low.toNat
     let bytes (k v : Nat) : List Byte := (List.range k).map fun i => BitVec.ofNat 8 (v / 256 ^ (k - 1 - i))
     let flags : Byte := (if x.mapValid then 1 else 0) + (if x.inspecting then 2 else 0) +
       (if x.headStamped then 4 else 0)
     let sent := forwardBytes dest source x bs
     sent = bytes 6 dest.toNat ++ bytes 6 source.toNat ++ (bs.drop 12).take (2 + length) ++
       [BitVec.ofNat 8 x.strand.val, flags] ++ bytes 2 x.residue ++ bytes 4 x.cell.toNat ++
       bytes 4 x.station.toNat ∧
     (14 + length ≤ bs.length → sent.length = 14 + length + 12)) ∧
  (∀ (report : Address) (f : OutFrame),
     let bytes (k v : Nat) : List Byte := (List.range k).map fun i => BitVec.ofNat 8 (v / 256 ^ (k - 1 - i))
     let signed (k : Nat) (v : Int) : List Byte := bytes k (v % (256 ^ k : Nat)).toNat
     let flag (b : Bool) (value : Byte) : Byte := if b then value else 0
     let dest : Address := match f.dest with
       | some a => a
       | none => report
     let frame (kind : Byte) (body : List Byte) : List Byte :=
       let unpadded := bytes 6 dest.toNat ++ bytes 6 f.source.toNat ++ bytes 2 f.frameType.toNat ++ [1, kind] ++
         bytes 2 (4 + body.length) ++ body
       unpadded ++ List.replicate (60 - unpadded.length) 0
     let status (x : Status) : Byte := match x with
       | .ok => 0 | .badFormat => 1 | .badCommand => 2 | .badValue => 3 | .range => 4 | .state => 5 | .inUse => 6
       | .notBound => 7
     let alarm (x : AlarmKind) : Byte := match x with
       | .headFenced => 1 | .headRestored => 2 | .runoutReverse => 3 | .tempStale => 4 | .markMerged => 5
       | .sawOverrun => 6 | .pieceBacklog => 7 | .pieceLost => 8 | .dieChanged => 9
     let event (x : EventKind) : Byte := match x with
       | .weld => 1 | .stop => 2 | .start => 3 | .pressRunFalling => 4 | .handover => 5 | .saw => 6
     let verdict (x : PieceVerdict) : Byte := match x with
       | .accept => 1 | .trim => 2 | .hold => 3 | .scrap => 4 | .aborted => 5
     let band (x : Band) : Byte := match x with
       | .good => 0 | .warn => 1 | .reject => 2 | .nodata => 3
     let zone (z : Zone) : List Byte := bytes 4 z.offset ++ bytes 4 z.length ++ [if z.cls = .hold then 1 else 2] ++
       bytes 2 z.reasons.toNat ++ [match z.lead with
         | some g => BitVec.ofNat 8 g
         | none => 255]
     let entry (g : GaugeResult) : List Byte :=
       [BitVec.ofNat 8 g.gauge, band g.band] ++ signed 4 g.deviation ++ [flag g.short 1]
     outBytes report f = match f.content with
       | .response tag command st data => frame 5 (bytes 2 tag.toNat ++ [command, status st] ++ data)
       | .piece c => frame 6 ([1, BitVec.ofNat 8 c.strand.val, verdict c.verdict, flag c.piece.overflow 1,
           BitVec.ofNat 8 c.piece.zones.length] ++ bytes 4 c.number.toNat ++ bytes 4 c.piece.first.toNat ++
           bytes 4 c.piece.cells ++ bytes 4 c.piece.good ++ bytes 4 c.piece.warn ++ bytes 4 c.piece.hold ++
           bytes 4 c.piece.scrap ++ bytes 2 c.piece.reasons.toNat ++ (c.piece.zones.map zone).flatten)
       | .event e => frame 6 ([2, event e.kind] ++ bytes 6 e.station ++ bytes 4 e.stationCell.toNat ++
           bytes 4 e.dieCell.toNat ++ bytes 4 e.sawCell.toNat)
       | .sectionRecord r => frame 6 ([3] ++ bytes 2 r.seq.toNat ++
           [BitVec.ofNat 8 r.strand.val, flag r.stale 1 + flag r.byDefault 2] ++ bytes 4 r.cell.toNat ++
           bytes 2 r.temp ++ bytes 2 r.shrink ++ [BitVec.ofNat 8 r.entries.length] ++ (r.entries.map entry).flatten)
       | .alarm a => frame 6 ([4, alarm a.kind, BitVec.ofNat 8 a.subject] ++ bytes 2 a.raised.toNat))

/-- At UPLINK_SEND_END the frame sent leaves queue A, B or C, or queue D lets go of its frame. When it answered
the RESET that waits, the soft reset is due and SOFT_RESET is put at the front of the queue of commands, so
that no other command comes between (the model’s form of R179, log 27). A place freed in queue B goes to
piece reports: UNSENT log entries are reported oldest first until 32 frames stand in the queue, and become
SENT; the entries and their order stay. A holder, whichever it is, lets go of the first frame it holds: with
another holder left the frame stays; otherwise it leaves the pool, its port’s use count falls by its blocks,
and that port’s flow-control check and the eviction check follow. -/
def Obligations.SendEndReleasesWhatWasSent : Prop :=
  (∀ (s : State) (x : Sending), s.upl.sending = some x →
     let u : State := { s with upl := { s.upl with sending := none } }
     (x.queue = .a → ∀ f rest, s.egs.a = f :: rest →
       exec .uplinkSendEnd s =
         .next { u with
           egs := { u.egs with a := rest }
           mga := { u.mga with
             reset := if s.mga.reset = .waiting ∧ f.answersReset = true then .due else s.mga.reset }
           pending :=
             if s.mga.reset = .waiting ∧ f.answersReset = true then .softReset :: s.pending else s.pending }) ∧
     (x.queue = .b →
       exec .uplinkSendEnd s = .next (queuePieceReports { u with egs := { u.egs with b := s.egs.b.drop 1 } })) ∧
     (x.queue = .c → exec .uplinkSendEnd s = .next { u with egs := { u.egs with c := s.egs.c.drop 1 } }) ∧
     (x.queue = .d →
       exec .uplinkSendEnd s = .next (releaseFirst HeldFrame.onWire HeldFrame.dropD u))) ∧
  (∀ s : State, s.egs.b.length ≤ 32 →
     let t := queuePieceReports s
     let unsent := s.pcu.log.filter (fun e => !e.sent)
     let queued := unsent.take (32 - s.egs.b.length)
     t.egs.b = s.egs.b ++ queued.map (fun e =>
       { frameType := s.upl.frameType, source := s.upl.station, dest := none, content := .piece e.completed }) ∧
     t.pcu.log.map (·.completed) = s.pcu.log.map (·.completed) ∧
     (t.pcu.log.filter (fun e => !e.sent)) = unsent.drop (32 - s.egs.b.length)) ∧
  (∀ (holds : HeldFrame → Bool) (letGo : HeldFrame → HeldFrame) (s : State),
     ((∀ x ∈ s.pool.held, holds x = false) → releaseFirst holds letGo s = s) ∧
     (∀ (before after : List HeldFrame) (f : HeldFrame), s.pool.held = before ++ f :: after →
       (∀ x ∈ before, holds x = false) → holds f = true →
       let kept : Prop := (letGo f).ptu = true ∨ (letGo f).tmu = true ∨ (letGo f).queueD ≠ .none
       let withHeld (l : List HeldFrame) : State := { s with pool := { s.pool with held := l } }
       (kept → releaseFirst holds letGo s = withHeld (before ++ letGo f :: after)) ∧
       (¬ kept →
         releaseFirst holds letGo s = evictionCheck (flowControlCheck f.port (withHeld (before ++ after)))) ∧
       ∀ p : Fin 8, useCount s.pool.held p =
         useCount (before ++ after) p + if f.port = p then ceilDiv f.bytes.length 128 else 0))

/-! ## Position and triggers -/

/-- ENCODER_CHANGE that steps forward, with S at most 65535 and M at most 2^48 − 1: S + K below 65536 becomes S
and M stays; otherwise the whole units of 65536 go to M as one advance and S keeps the remainder; an advance
past 2^48 − 1 stops there with S at 65535, and at 2^48 − 1 M stays with S at 65535. The decoder phase and
the pins take the new pair. -/
def Obligations.ForwardCountsMoveTheStation : Prop :=
  ∀ (a b : Bool) (s : State), s.inReset = false → StepsForward s ⟨a, b⟩ →
    s.pos.acc ≤ 65535 → s.pos.station ≤ 2 ^ 48 - 1 →
    let sum := s.pos.acc + s.pos.scale
    let units := (sum / 65536).toNat
    let moved (acc : Int) (station : Nat) : State :=
      { s with pins := { s.pins with enc := ⟨a, b⟩ },
               pos := { s.pos with phase := ⟨a, b⟩, acc := acc, station := station } }
    (sum < 65536 → exec (.encoderChange a b) s = .next (moved sum s.pos.station)) ∧
    (65536 ≤ sum → s.pos.station + units ≤ 2 ^ 48 - 1 →
      exec (.encoderChange a b) s =
        .next (takeAdvance s.pos.station (moved (sum % 65536) (s.pos.station + units)))) ∧
    (65536 ≤ sum → 2 ^ 48 - 1 < s.pos.station + units → s.pos.station < 2 ^ 48 - 1 →
      exec (.encoderChange a b) s = .next (takeAdvance s.pos.station (moved 65535 (2 ^ 48 - 1)))) ∧
    (65536 ≤ sum → s.pos.station = 2 ^ 48 - 1 →
      exec (.encoderChange a b) s = .next (moved 65535 s.pos.station))

/-- ENCODER_CHANGE that steps back takes K from S, not below −(reverse limit × 65536), also while the latch is
SET (the model’s reading, log 13), and leaves M. When S is then at that clamp value with the reverse latch
CLEAR, the latch becomes SET and RUNOUT_REVERSE is raised with subject 0. A change of both inputs at once,
and a repeated pair, only move the decoder phase. While a reset is in progress a change reaches the pins
alone. -/
def Obligations.ReverseCountsStopAtTheClamp : Prop :=
  (∀ (a b : Bool) (s : State), s.inReset = false → StepsBack s ⟨a, b⟩ →
     let low := -((s.pos.reverseLimit : Int) * 65536)
     let acc := max low (s.pos.acc - s.pos.scale)
     let moved (latch : Bool) : State :=
       { s with pins := { s.pins with enc := ⟨a, b⟩ },
                pos := { s.pos with phase := ⟨a, b⟩, acc := acc, latch := latch } }
     (acc = low → s.pos.latch = false →
       exec (.encoderChange a b) s = .next (raiseAlarm .runoutReverse 0 (moved true))) ∧
     (acc ≠ low ∨ s.pos.latch = true → exec (.encoderChange a b) s = .next (moved s.pos.latch))) ∧
  (∀ (a b : Bool) (s : State),
     (s.inReset = false → ¬ StepsForward s ⟨a, b⟩ → ¬ StepsBack s ⟨a, b⟩ →
       exec (.encoderChange a b) s =
         .next { s with pins := { s.pins with enc := ⟨a, b⟩ }, pos := { s.pos with phase := ⟨a, b⟩ } }) ∧
     (s.inReset = true →
       exec (.encoderChange a b) s = .next { s with pins := { s.pins with enc := ⟨a, b⟩ } }))

/-- An advance first clears the reverse latch and the RUNOUT_REVERSE flag and is then handed to the trigger
generator, the length map and the stillness timer (in the order of log 16). The timer stays HALTED, restarts
when RUNNING, and when DISARMED restarts once M is one cell length beyond the stop coordinate.
STILLNESS_EXPIRY at or past the expiry disarms the timer at M and takes a STOP event; before it, or while
the timer does not run, nothing happens (log 3). -/
def Obligations.AdvancesClearTheLatchAndRestartStillness : Prop :=
  (∀ (old : Nat) (s : State),
     takeAdvance old s =
       advanceStillness (advanceMap old s.pos.station (pitchDueTest
         { s with pos := { s.pos with latch := false }
                  mga := { s.mga with alarms := s.mga.alarms &&& ~~~4#9 } }))) ∧
  (∀ s : State,
     let restarted := { s with emu := { s.emu with stillness := .running (s.now + s.emu.stillTime * 1000) } }
     (s.emu.stillness = .halted → advanceStillness s = s) ∧
     (∀ e, s.emu.stillness = .running e → advanceStillness s = restarted) ∧
     (∀ stop g, s.emu.stillness = .disarmed stop → s.lmp.geometry = some g →
       advanceStillness s = if stop + g.cellLength ≤ s.pos.station then restarted else s)) ∧
  (∀ s : State,
     (∀ e, s.emu.stillness = .running e → e ≤ s.now →
       exec .stillnessExpiry s =
         .next (takeEvent .stop { s with emu := { s.emu with stillness := .disarmed s.pos.station } })) ∧
     ((∀ e, s.emu.stillness = .running e → s.now < e) → exec .stillnessExpiry s = .next s))

/-- A trigger that fires takes the next scan sequence number and the present time, is counted, puts a start time
after the phase delay into the schedule of every HEAD port and of no other, and is offered to section
assembly. PULSE_START takes a start time reached from the schedule and asserts the output until 10 µs after
it, merged with a pulse still running; PULSE_RELEASE releases the output at its release time. Before their
times neither changes anything (log 3); a late PULSE_START still counts from the start time (log 32).
Offered a trigger whose number a held slot holds, SAU skips it; otherwise the lowest FREE slot is COLLECTING
with the record of R38, its number off the void list, and closes at once when no head is in MEASURE; with no
FREE slot the section is skipped, the COLLECTING slot of earliest open time having closed and EARLY_CLOSE
counted; of slots with equal open times the lower one closes, the model’s choice (log 18), as R39 names none
of them. Skipping counts SKIPPED and adds the number to the void list, the oldest of 16 going first. The
temperature sample of a strand is the held temperature when it is FRESH, the held one with TEMP_STALE when
it is STALE, the default temperature of the die in service with TEMP_DEFAULT when it is NONE; its shrink
value is that of the sample in the in-use copy of the curve that the die names. -/
def Obligations.FiredTriggersPulseTheHeadPorts : Prop :=
  (∀ s : State,
     let t := fireTrigger s
     (∀ p : Fin 8, t.trg.outputs[p] =
       if (s.ports[p]).role = .head then
         { s.trg.outputs[p] with
           schedule := insertTime (s.now + (s.trg.outputs[p]).phaseDelay) (s.trg.outputs[p]).schedule }
       else s.trg.outputs[p]) ∧
     t.trg = { s.trg with seq := s.trg.seq + 1, last := some s.now, outputs := t.trg.outputs } ∧
     t = offerTrigger (s.trg.seq + 1) s.pos.station s.now
       (countGlobal .triggers { s with trg := t.trg })) ∧
  (∀ (p : Fin 8) (s : State),
     (∀ start later, (s.trg.outputs[p]).schedule = start :: later → start ≤ s.now →
       exec (.pulseStart p.val) s =
         .next (s.modOutput p fun o => { o with schedule := later, release := some (start + 10) })) ∧
     ((∀ start later, (s.trg.outputs[p]).schedule = start :: later → s.now < start) →
       exec (.pulseStart p.val) s = .next s) ∧
     (∀ time, (s.trg.outputs[p]).release = some time → time ≤ s.now →
       exec (.pulseRelease p.val) s = .next (s.modOutput p fun o => { o with release := none })) ∧
     ((∀ time, (s.trg.outputs[p]).release = some time → s.now < time) →
       exec (.pulseRelease p.val) s = .next s)) ∧
  ((∀ (seq : BitVec 16) (station time : Nat) (s : State),
     let held (i : Fin 16) : Prop := (s.sau.slots[i]).state ≠ .free
     let collects (i : Fin 16) : Prop := (s.sau.slots[i]).state = .collecting
     let taken : Prop := ∃ i : Fin 16, held i ∧ (s.sau.slots[i]).seq = seq
     let skipped (u : State) : State := addVoid seq (countGlobal .skipped u)
     (taken → offerTrigger seq station time s = skipped s) ∧
     (¬ taken → ∀ i : Fin 16, ¬ held i → (∀ j : Fin 16, j < i → held j) → ∃ x : Slot,
       x.state = .collecting ∧ x.seq = seq ∧ x.station = station ∧ x.openTime = time ∧
       x.deadline = time + s.sau.timeout ∧
       (∀ g : Geometry, s.lmp.geometry = some g →
         x.cell = BitVec.ofInt 32 (((station : Int) - g.origin) / g.cellLength)) ∧
       (∀ t ∈ usedStrands s, x.temps[t] = sampleFor s t) ∧
       (∀ h : Fin 16, x.heads[h] =
         { participation :=
             if (s.heads[h]).state = .measure then .measure
             else if (s.heads[h]).state = .fenced then .fenced else .out
           count := none, received := 0, contribution := .nothing, released := false }) ∧
       (∀ t ∈ usedStrands s, x.windows[t] =
         List.replicate (min 64 ((servingDie s).strands[t]).windowCount) Accumulator.empty) ∧
       let u : State := { s with sau := { s.sau with
         slots := s.sau.slots.set i x, voidList := s.sau.voidList.filter (· ≠ seq) } }
       let awaited : Prop := ∃ h : Fin 16, (s.heads[h]).state = .measure
       (awaited → offerTrigger seq station time s = u) ∧
       (¬ awaited → offerTrigger seq station time s = closeSlot i u)) ∧
     (¬ taken → (∀ i : Fin 16, held i) →
       ((∀ i : Fin 16, ¬ collects i) → offerTrigger seq station time s = skipped s) ∧
       (∀ i : Fin 16, collects i →
         (∀ j : Fin 16, collects j → (s.sau.slots[i]).openTime ≤ (s.sau.slots[j]).openTime ∧
           (j < i → (s.sau.slots[i]).openTime < (s.sau.slots[j]).openTime)) →
         offerTrigger seq station time s = skipped (countGlobal .earlyClose (closeSlot i s))))) ∧
   (∀ (seq : BitVec 16) (s : State),
     addVoid seq s = { s with sau := { s.sau with voidList :=
       (if s.sau.voidList.length < 16 then s.sau.voidList else s.sau.voidList.tail) ++ [seq] } })) ∧
  (∀ (t : Fin 4) (s : State),
     let die := (servingDie s).entry
     let shrink (temp : Nat) : Nat := shrinkAt (s.tmu.curves[die.curve]).inUse temp
     (∀ temp taken expiry, s.tmu.strands[t] = .fresh temp taken expiry →
       sampleFor s t = { temp := temp, stale := false, byDefault := false, shrink := shrink temp }) ∧
     (∀ temp taken, s.tmu.strands[t] = .stale temp taken →
       sampleFor s t = { temp := temp, stale := true, byDefault := false, shrink := shrink temp }) ∧
     (s.tmu.strands[t] = .none →
       sampleFor s t =
         { temp := die.defaultTemp, stale := false, byDefault := true, shrink := shrink die.defaultTemp }))

/-- While INSPECTING in PITCH mode with none deferred, a trigger is due once M has reached G + P: it fires when
Tmin has passed since the last trigger, moving G by whole pitches up to M and counting the points passed
over, and is deferred otherwise. In TIME mode the period timer’s expiry fires and restarts the timer, or
defers. TMIN_EXPIRY fires a deferred trigger of either mode once Tmin has passed. -/
def Obligations.DueTriggersFireOrAreDeferred : Prop :=
  (∀ s : State, s.dlb.service = .inspecting → s.trg.mode = .pitch →
     let k := (s.pos.station - s.trg.grid) / s.trg.pitch
     let fired := fireTrigger (countGlobalBy .triggerOverrun (k - 1)
       { s with trg := { s.trg with grid := s.trg.grid + k * s.trg.pitch, deferred := false } })
     (s.trg.deferred = false → s.trg.grid + s.trg.pitch ≤ s.pos.station →
       (Spaced s → pitchDueTest s = fired) ∧
       (¬ Spaced s → pitchDueTest s = { s with trg := { s.trg with deferred := true } })) ∧
     (s.trg.deferred = true ∨ s.pos.station < s.trg.grid + s.trg.pitch → pitchDueTest s = s) ∧
     (s.trg.deferred = true → Spaced s → exec .tminExpiry s = .next fired)) ∧
  (∀ s : State, s.dlb.service = .inspecting → s.trg.mode = .time →
     let fired := fireTrigger { s with trg := { s.trg with
       deferred := false, timer := some (s.now + s.trg.period) } }
     (∀ e, s.trg.timer = some e → e ≤ s.now →
       (Spaced s → exec .periodTimerExpiry s = .next fired) ∧
       (¬ Spaced s →
         exec .periodTimerExpiry s =
           .next { s with trg := { s.trg with deferred := true, timer := none } })) ∧
     (s.trg.deferred = true → Spaced s → exec .tminExpiry s = .next fired))

/-! ## Sections -/

/-- FRAGMENT_TAKE takes the oldest fragment that the transform unit holds, judges it and lets go of it. STRAY
and LATE are counted under its head. In a COLLECTING slot it is STRAY when its head does not take part,
CORRUPT when the head is corrupt already, DUPLICATE when its index was received; a differing count makes the
head CORRUPT and taints its windows; otherwise it is accepted and the points of a MEASURE head are used; the
last two are followed by the completion test. The case is the first that holds of: newer than the last
trigger, on the void list, held by a COLLECTING slot, held by another slot, older than every held slot’s
number or no slot held, none. An accepted index joins the received set, the count seen is set once, and the
contribution is COMPLETE when every index below it was received, else PARTIAL. Points are used one after
another: one of an unwritten head, with v = 0 or below the minimum quality, does nothing; any other is
turned and shifted by the calibration, saturated, and added to each window of the head’s strand that names
the head and whose box contains it: count, extremes, sums, contributor; at 65535 count and sums stay. A
taint marks the accumulators that the head contributed to, in every strand. Quotients are exact, then
rounded to the nearest, halves away from zero. -/
def Obligations.FragmentsAreJudgedInOrder : Prop :=
  (∀ (s : State) (f : HeldFrame), s.pool.held.find? (·.ptu) = some f →
     let h := admittedHead f.bytes
     let ends (u : State) : Host.Outcome State Fault Refusal :=
       .next (releaseFirst (·.ptu) (fun x => { x with ptu := false }) u)
     (fragmentCase s (scanSeq f.bytes) = .stray → exec .fragmentTake s = ends (countHead h .stray s)) ∧
     (fragmentCase s (scanSeq f.bytes) = .late → exec .fragmentTake s = ends (countHead h .late s)) ∧
     (∀ i : Fin 16, fragmentCase s (scanSeq f.bytes) = .collecting i →
       let e := (s.sau.slots[i]).heads[h]
       (e.participation = .out → exec .fragmentTake s = ends (countHead h .stray s)) ∧
       (e.participation ≠ .out → e.contribution = .corrupt →
         exec .fragmentTake s = ends (countHead h .corrupt s)) ∧
       (e.participation ≠ .out → e.contribution ≠ .corrupt →
         e.received.getLsbD (scanIndex f.bytes) = true →
         exec .fragmentTake s = ends (countHead h .duplicate s)) ∧
       (e.participation ≠ .out → e.contribution ≠ .corrupt →
         e.received.getLsbD (scanIndex f.bytes) = false →
         (∀ n, e.count = some n → n ≠ scanCount f.bytes →
           exec .fragmentTake s =
             ends (completionTest i
               (State.modSlot i (taintHead h)
                 (modEntry i h (fun x => { x with contribution := .corrupt }) (countHead h .corrupt s))))) ∧
         (e.count = none ∨ e.count = some (scanCount f.bytes) →
           let u := modEntry i h (HeadEntry.accept (scanIndex f.bytes) (scanCount f.bytes))
             (countHead h .accepted s)
           exec .fragmentTake s =
             ends (completionTest i
               (if e.participation = .measure then
                 u.modSlot i (usePoints (servingDie u) h u.heads[h] (scanPointList f.bytes))
                else u)))))) ∧
  ((∀ (index count : Nat) (e : HeadEntry),
     let t := HeadEntry.accept index count e
     let seen : Nat := match e.count with
       | some n => n
       | none => count
     t.participation = e.participation ∧ t.released = e.released ∧ t.count = some seen ∧
     (∀ n : Fin 4, t.received.getLsbD n.val = true ↔ e.received.getLsbD n.val = true ∨ n.val = index) ∧
     ((∀ n : Nat, n < seen → t.received.getLsbD n = true) → t.contribution = .complete) ∧
     ((∃ n : Nat, n < seen ∧ t.received.getLsbD n = false) → t.contribution = .part)) ∧
   (∀ (h : Fin 16) (slot : Slot),
     let u := taintHead h slot
     u = { slot with windows := u.windows } ∧
     ∀ (t : Fin 4) (k : Nat), (u.windows[t])[k]? = ((slot.windows[t])[k]?).map fun a =>
       { a with tainted := if a.contributors.getLsbD h.val = true then true else a.tainted })) ∧
  ((∀ (n : Int) (d : Nat), 0 < d →
     let q := roundedDiv n d
     2 * (n - q * d).natAbs ≤ d ∧ (2 * (n - q * d).natAbs = d → n.natAbs < (q * d).natAbs)) ∧
   (∀ x : Int, saturate 8388607 x = if x < -8388607 then -8388607 else if 8388607 < x then 8388607 else x)) ∧
  (∀ (die : DieRecord) (h : Fin 16) (head : Head) (slot : Slot),
     let use (points : List RawPoint) (x : Slot) : Slot := usePoints die h head points x
     let t := head.cal.strand
     use [] slot = slot ∧
     (∀ (p : RawPoint) (later : List RawPoint), use (p :: later) slot = use later (use [p] slot)) ∧
     (∀ p : RawPoint,
       (head.written = false ∨ p.v = 0 ∨ p.q < head.cal.minQuality → use [p] slot = slot) ∧
       (head.written = true → p.v ≠ 0 → head.cal.minQuality ≤ p.q →
         let c := head.cal
         let x : Int := saturate 8388607
           (c.x0 + roundedDiv (c.cosine * (5 * p.u) - c.sine * (5 * (p.v : Int))) 16384)
         let y : Int := saturate 8388607
           (c.y0 + roundedDiv (c.sine * (5 * p.u) + c.cosine * (5 * (p.v : Int))) 16384)
         let u := use [p] slot
         u = { slot with windows := u.windows } ∧ (∀ n : Fin 4, n ≠ t → u.windows[n] = slot.windows[n]) ∧
         ((slot.windows[t]).length ≤ 64 → (u.windows[t]).length = (slot.windows[t]).length) ∧
         ∀ (k : Fin 64) (a : Accumulator), (slot.windows[t])[k.val]? = some a →
           let w := (die.windows[t])[k]
           let contains : Prop := w.heads.getLsbD h.val = true ∧ w.xLo ≤ x ∧ x ≤ w.xHi ∧ w.yLo ≤ y ∧ y ≤ w.yHi
           (¬ contains → (u.windows[t])[k.val]? = some a) ∧
           (contains → (u.windows[t])[k.val]? = some
             { count := if a.count < 65535 then a.count + 1 else a.count
               minX := if a.count = 0 then x else min a.minX x
               maxX := if a.count = 0 then x else max a.maxX x
               minY := if a.count = 0 then y else min a.minY y
               maxY := if a.count = 0 then y else max a.maxY y
               sumX := if a.count < 65535 then a.sumX + x else a.sumX
               sumY := if a.count < 65535 then a.sumY + y else a.sumY
               contributors := a.contributors ||| (1#16 <<< h.val)
               tainted := a.tainted })))) ∧
  (∀ (s : State) (q : BitVec 16),
     let newerThan (a b : BitVec 16) : Prop := 1 ≤ (a - b).toNat ∧ (a - b).toNat ≤ 32767
     let isHeld (i : Fin 16) : Prop := (s.sau.slots[i]).state ≠ .free
     (newerThan q s.trg.seq → fragmentCase s q = .stray) ∧
     (q ∈ s.sau.voidList → fragmentCase s q = .stray) ∧
     (¬ newerThan q s.trg.seq → q ∉ s.sau.voidList →
       (∀ i : Fin 16, isHeld i → (s.sau.slots[i]).seq = q →
         (∀ j : Fin 16, j < i → ¬ (isHeld j ∧ (s.sau.slots[j]).seq = q)) →
         ((s.sau.slots[i]).state = .collecting → fragmentCase s q = .collecting i) ∧
         ((s.sau.slots[i]).state ≠ .collecting → fragmentCase s q = .late)) ∧
       ((∀ i : Fin 16, isHeld i → (s.sau.slots[i]).seq ≠ q) →
         ((∀ i : Fin 16, isHeld i → newerThan (s.sau.slots[i]).seq q) → fragmentCase s q = .late) ∧
         ((∃ i : Fin 16, isHeld i ∧ ¬ newerThan (s.sau.slots[i]).seq q) → fragmentCase s q = .stray))))

/-- SLOT_DEADLINE_EXPIRY closes a slot that is COLLECTING at or past its deadline and changes nothing otherwise
(log 3). A slot that closes keeps its whole record and is CLOSED-WAITING, or EVALUATING when the evaluator
took it at once. A closing takes the heads in ascending order, then the head filters, then the slot joins
the evaluator queue. An enabled head filter counts a filtered section when its head has a COMPLETE
contribution in the slot. Further closings follow where a COLLECTING slot awaits no head: after each
closing, those that are not due yet go behind the ones due, in ascending order of open time among
themselves, the lower slot first of equal times (log 18); each closes in full before the next, and none is
left at the end. A head with participation and state MEASURE has its miss run 0 after a COMPLETE
contribution; otherwise a miss is counted, and at the fence limit the head is FENCED, counted, alarmed and
released in every other COLLECTING slot. One with both FENCED has its restore run raised or 0, and at the
restore count it is in MEASURE again, HEAD_FENCED clearing first when no head remains FENCED (log 17). Any
other head is left; what counts after a restore is the model’s choice (log 41). -/
def Obligations.DeadlinesCloseCollectingSlots : Prop :=
  (∀ (i : Fin 16) (s : State),
     ((s.sau.slots[i]).state = .collecting → (s.sau.slots[i]).deadline ≤ s.now →
       exec (.slotDeadlineExpiry i.val) s = .next (closeSlot i s)) ∧
     ((s.sau.slots[i]).state ≠ .collecting ∨ s.now < (s.sau.slots[i]).deadline →
       exec (.slotDeadlineExpiry i.val) s = .next s)) ∧
  (∀ (i : Fin 16) (s : State), (s.sau.slots[i]).state = .collecting →
     (closeSlot i s).sau.slots[i] = { s.sau.slots[i] with state := .closedWaiting } ∨
     (closeSlot i s).sau.slots[i] = { s.sau.slots[i] with state := .evaluating }) ∧
  ((∀ (i h : Fin 16) (s : State),
     let e := (s.sau.slots[i]).heads[h]
     let x := s.heads[h]
     let measured : Prop := e.participation = .measure ∧ x.state = .measure
     let fenced : Prop := e.participation = .fenced ∧ x.state = .fenced
     let complete : Prop := e.contribution = .complete
     let t := updateTimeliness i h s
     (¬ measured → ¬ fenced → t = s) ∧
     (measured → complete → t = s.modHead h fun y => { y with missRun := 0 }) ∧
     (measured → ¬ complete →
       let run := min 255 (x.missRun + 1)
       let u := countHead h .misses (s.modHead h fun y => { y with missRun := run })
       (run < s.sau.fenceLimit → t = u) ∧
       (s.sau.fenceLimit ≤ run →
         let v := raiseAlarm .headFenced h.val (countHead h .fencings
           (u.modHead h fun y => { y with state := .fenced, missRun := 0, restoreRun := 0 }))
         t = { v with sau := { v.sau with slots := t.sau.slots } } ∧
         ∀ j : Fin 16, t.sau.slots[j] =
           let slot := s.sau.slots[j]
           if j ≠ i ∧ slot.state = .collecting ∧ (slot.heads[h]).participation = .measure then
             { slot with heads := slot.heads.set h { slot.heads[h] with released := true } }
           else slot)) ∧
     (fenced → ¬ complete → t = s.modHead h fun y => { y with restoreRun := 0 }) ∧
     (fenced → complete →
       let run := min 255 (x.restoreRun + 1)
       let u := s.modHead h fun y => { y with restoreRun := run }
       (s.sau.restoreCount = 0 ∨ run < s.sau.restoreCount → t = u) ∧
       (s.sau.restoreCount ≠ 0 → s.sau.restoreCount ≤ run →
         let v := u.modHead h fun y => { y with state := .measure, missRun := 0, restoreRun := 0 }
         ((∃ g : Fin 16, g ≠ h ∧ (s.heads[g]).state = .fenced) → t = raiseAlarm .headRestored h.val v) ∧
         ((∀ g : Fin 16, g ≠ h → (s.heads[g]).state ≠ .fenced) →
           t = raiseAlarm .headRestored h.val
             { v with mga := { v.mga with alarms := v.mga.alarms &&& ~~~1#9 } })))) ∧
   (∀ (i : Fin 16) (s : State),
     let a := forEach (List.finRange 2) (countFilter i) (forEach (List.finRange 16) (updateTimeliness i) s)
     let b := a.modSlot i fun x => { x with state := .closedWaiting }
     let u := takeSlot { b with gev := { b.gev with queue := b.gev.queue ++ [i] } }
     let awaits (x : Slot) : Prop := ∃ h : Fin 16, (x.heads[h]).participation = .measure ∧
       (x.heads[h]).released = false ∧
       ((x.heads[h]).contribution = .nothing ∨ (x.heads[h]).contribution = .part)
     (∀ j : Fin 16, (u.sau.slots[j]).state = .collecting → awaits (u.sau.slots[j])) → closeSlot i s = u)) ∧
  ((∀ (i : Fin 16) (f : Fin 2) (s : State),
     let x := s.ctb.filters[f]
     let counts : Prop := x.enabled = true ∧ ((s.sau.slots[i]).heads[x.head]).contribution = .complete
     (counts → countFilter i f s = countGlobal (if f = 0 then .filtered0 else .filtered1) s) ∧
     (¬ counts → countFilter i f s = s)) ∧
   (let awaits (x : Slot) : Prop := ∃ h : Fin 16, (x.heads[h]).participation = .measure ∧
     (x.heads[h]).released = false ∧
     ((x.heads[h]).contribution = .nothing ∨ (x.heads[h]).contribution = .part)
    (∀ (i : Fin 16) (s : State),
       let a := forEach (List.finRange 2) (countFilter i) (forEach (List.finRange 16) (updateTimeliness i) s)
       let b := a.modSlot i fun x => { x with state := .closedWaiting }
       closeOne i s = takeSlot { b with gev := { b.gev with queue := b.gev.queue ++ [i] } }) ∧
    (∀ (n : Nat) (i : Fin 16) (due followers : List (Fin 16)) (s : State),
       let u := closeOne i s
       let opened (j : Fin 16) : Nat := (u.sau.slots[j]).openTime
       (∀ j : Fin 16, j ∈ followers ↔
         (u.sau.slots[j]).state = .collecting ∧ ¬ awaits (u.sau.slots[j]) ∧ j ∉ due) →
       followers.Pairwise (fun a b => opened a < opened b ∨ (opened a = opened b ∧ a < b)) →
       closeAll (n + 1) (i :: due) s = closeAll n (due ++ followers) u) ∧
    (∀ (n : Nat) (s : State), closeAll n [] s = s) ∧
    (∀ (i : Fin 16) (s : State),
       closeSlot i s = closeAll 16 [i] s ∧
       ∀ j : Fin 16, ((closeSlot i s).sau.slots[j]).state = .collecting →
         awaits ((closeSlot i s).sau.slots[j]))))

/-- EVALUATION_COMPLETE delivers the outcomes of the strands in use, in strand order, blanked or evaluated as
the test made when the slot was taken says; the slot is FREE and the next is taken. With no slot in
evaluation nothing happens (log 3). An outcome reaches its cell while the ring holds it and it is not
CLOSED, and is otherwise counted SECTION_BEYOND_SAW. An idle evaluator takes the slot at the head of its
queue, which becomes EVALUATING, and tests its station coordinate against the blanking windows. A blanked
outcome adds 1 to the cell’s blanked count, an evaluated one 1 to its evaluated count, to those of with-
data, PARTIAL and WARN sections that it is, and to the tally of each gauge in REJECT, saturating (R106,
R108). A strand’s results are those of its enabled gauges below the gauge count; with at least one result
and the masked scan number equal to the masked compare value, a section record joins queue C, or is dropped
and counted at 64 (R109). A SPAN gauge needs picks of its windows A and B, a SPREAD gauge of A: at least the
minimum point count and no taint; without them it is NODATA with deviation 0; PARTIAL says that a needed
window names a short head. -/
def Obligations.EvaluationsDeliverAndFreeTheSlot : Prop :=
  (∀ s : State,
     (∀ (i : Fin 16) (blanked : Bool), s.gev.current = some (i, blanked) →
       let slot := s.sau.slots[i]
       let u := forEach (usedStrands s) (if blanked then completeBlanked slot else completeEvaluated slot) s
       let v := u.modSlot i fun _ => Slot.empty
       exec .evaluationComplete s = .next (takeSlot { v with gev := { v.gev with current := none } })) ∧
     (s.gev.current = none → exec .evaluationComplete s = .next s)) ∧
  (∀ (t : Fin 4) (n : Word32) (f : Cell → Cell) (s : State),
     (∀ c : Cell, (s.lmp.rings[t]).cell n = some c → c.state ≠ .closed →
       deliver t n f s = s.modRing t (Ring.onCell n f)) ∧
     ((s.lmp.rings[t]).cell n = none ∨ (∃ c, (s.lmp.rings[t]).cell n = some c ∧ c.state = .closed) →
       deliver t n f s = countStrand t .beyondSaw s)) ∧
  (∀ (s : State) (i : Fin 16) (rest : List (Fin 16)),
     s.gev.queue = i :: rest → s.gev.current = none →
     takeSlot s =
       { s.modSlot i fun x => { x with state := .evaluating } with
         gev := { queue := rest, current := some (i, s.emu.blanking.any fun w =>
           decide (w.start ≤ (s.sau.slots[i]).station) && decide ((s.sau.slots[i]).station < w.stop)) } }) ∧
  (∀ (rs : List GaugeResult) (c : Cell),
     let t := c.applyOutcome rs
     let up (limit n : Nat) : Nat := min limit (n + 1)
     let one (p : GaugeResult → Bool) : Prop := rs.any p = true
     c.applyBlanked = { c with blanked := up 65535 c.blanked } ∧
     t = { c with
       evaluated := up 65535 c.evaluated
       withData := if one (fun r => decide (r.band ≠ .nodata)) then up 65535 c.withData else c.withData
       partials := if one (fun r => r.short) then up 65535 c.partials else c.partials
       warns := if one (fun r => decide (r.band = .warn)) then up 65535 c.warns else c.warns
       tallies := t.tallies } ∧
     ∀ g : Fin 32, t.tallies[g] =
       if one (fun r => decide (r.gauge = g.val ∧ r.band = .reject)) then up 15 c.tallies[g]
       else c.tallies[g]) ∧
  (∀ (slot : Slot) (t : Fin 4) (s : State),
     let die := servingDie s
     let rs := ((List.finRange 32).filter fun n =>
       decide (n.val < (die.strands[t]).gaugeCount) && (die.gauges[t])[n].enabled).map (gaugeResult die slot t)
     let u := deliver t slot.cell (Cell.applyOutcome rs) (countStrand t .evaluated s)
     let sample := slot.temps[t]
     let report : OutFrame :=
       { frameType := s.upl.frameType, source := s.upl.station, dest := none
         content := .sectionRecord
           { seq := slot.seq, strand := t, stale := sample.stale, byDefault := sample.byDefault, cell := slot.cell
             temp := sample.temp, shrink := sample.shrink, entries := rs } }
     let taken : Prop := rs ≠ [] ∧ slot.seq &&& die.entry.sampleMask = die.entry.sampleCompare &&& die.entry.sampleMask
     completeBlanked slot t s = deliver t slot.cell Cell.applyBlanked (countStrand t .blanked s) ∧
     (¬ taken → completeEvaluated slot t s = u) ∧
     (taken → s.egs.c.length < 64 →
       completeEvaluated slot t s = { u with egs := { u.egs with c := s.egs.c ++ [report] } }) ∧
     (taken → 64 ≤ s.egs.c.length → completeEvaluated slot t s = countGlobal .sectionRecordsDropped u)) ∧
  (∀ (die : DieRecord) (slot : Slot) (t : Fin 4) (n : Fin 32),
     let g := (die.gauges[t])[n]
     let r := gaugeResult die slot t n
     let picks (w : Nat) (a : Accumulator) : Prop := ∃ k : Fin 64, k.val = w ∧
       (slot.windows[t])[w]? = some a ∧ ((die.windows[t])[k]).minCount ≤ a.count ∧ a.tainted = false
     let value (a : Accumulator) (p : Pick) : Int := match p, g.axis with
       | .min, .x => a.minX
       | .min, .y => a.minY
       | .max, .x => a.maxX
       | .max, .y => a.maxY
       | .mean, .x => roundedDiv a.sumX a.count
       | .mean, .y => roundedDiv a.sumY a.count
     (g.kind = .span → ∀ a b : Accumulator, picks g.windowA a → picks g.windowB b →
       hotValue die slot t g = some (saturate 8388607 (value b g.pickB - value a g.pickA))) ∧
     (g.kind = .spread → ∀ a : Accumulator, picks g.windowA a →
       hotValue die slot t g = some (saturate 8388607 (value a .max - value a .min))) ∧
     ((∀ a : Accumulator, ¬ picks g.windowA a) ∨ (g.kind = .span ∧ ∀ b : Accumulator, ¬ picks g.windowB b) →
       hotValue die slot t g = none) ∧
     (hotValue die slot t g = none → r.band = .nodata ∧ r.deviation = 0) ∧ r.gauge = n.val ∧
     (r.short = true ↔ ∃ (k : Fin 64) (h : Fin 16),
       (k.val = g.windowA ∨ (g.kind = .span ∧ k.val = g.windowB)) ∧
       ((die.windows[t])[k]).heads.getLsbD h.val = true ∧
       (((slot.heads[h]).participation = .measure ∧ (slot.heads[h]).contribution ≠ .complete) ∨
         (slot.heads[h]).participation = .fenced)))

/-- TMU_TAKE_TEMP takes the readings of the oldest TEMP frame in order and lets go of it; with none held it
changes nothing (log 3). A valid reading of at most 8000 makes its strand FRESH until the hold time has
passed; any other is counted TEMP_INVALID. TEMP_EXPIRY makes a FRESH strand at its expiry STALE with its
reading kept, and raises TEMP_STALE while INSPECTING for a strand of the die in service; before the expiry
it changes nothing (log 3). The clearing test takes the TEMP_STALE flag down unless a strand of the die in
service is STALE; with no die in service no strand is, so the test passes (the model’s reading, log 33). It
is made after each valid reading, at a placement, once every strand record has become NONE, so that the flag
clears there, and at a DEACTIVATE, where it clears too because no die serves any more; nothing else of the
agent’s state changes by it. -/
def Obligations.TemperatureReadingsAreKeptAndExpire : Prop :=
  ((∀ (s : State) (f : HeldFrame), s.pool.held.find? (·.tmu) = some f →
     exec .tmuTakeTemp s =
       .next (releaseFirst (·.tmu) (fun x => { x with tmu := false })
         (forEach (tempReadings f.bytes) (takeReading f.port) s))) ∧
   (∀ s : State, s.pool.held.find? (·.tmu) = none → exec .tmuTakeTemp s = .next s) ∧
   (∀ (s : State) (p : Fin 8) (t : Fin 4) (temp : Nat),
     (temp ≤ 8000 →
       takeReading p { strand := t.val, valid := true, temp := temp } s =
         staleClearTest { s with tmu := { s.tmu with
           strands := s.tmu.strands.set t (.fresh temp s.now (s.now + s.tmu.holdTime * 1000)) } }) ∧
     (8000 < temp → takeReading p { strand := t.val, valid := true, temp := temp } s =
       countPort p.castSucc .tempInvalid s) ∧
     takeReading p { strand := t.val, valid := false, temp := temp } s = countPort p.castSucc .tempInvalid s)) ∧
  (∀ (t : Fin 4) (s : State),
     (∀ temp taken expiry, s.tmu.strands[t] = .fresh temp taken expiry → expiry ≤ s.now →
       let u := { s with tmu := { s.tmu with strands := s.tmu.strands.set t (.stale temp taken) } }
       (s.dlb.service = .inspecting → t ∈ usedStrands s →
         exec (.tempExpiry t.val) s = .next (raiseAlarm .tempStale t.val u)) ∧
       (s.dlb.service ≠ .inspecting ∨ t ∉ usedStrands s → exec (.tempExpiry t.val) s = .next u)) ∧
     ((∀ temp taken expiry, s.tmu.strands[t] = .fresh temp taken expiry → s.now < expiry) →
       exec (.tempExpiry t.val) s = .next s)) ∧
  ((∀ s : State,
     let stale : Prop := ∃ t ∈ usedStrands s, ∃ temp taken, s.tmu.strands[t] = .stale temp taken
     (stale → staleClearTest s = s) ∧
     (¬ stale → staleClearTest s = { s with mga := { s.mga with alarms := s.mga.alarms &&& ~~~8#9 } }) ∧
     ((∀ k : Fin 8, (s.dlb.slots[k]).state ≠ .inService) → usedStrands s = [])) ∧
   (∀ (k : Fin 8) (s : State),
     let u := takeCurves (flushMap (setDieState k .inService (readyFrom .inService s)))
     placeInService k s = { u with
       tmu := { u.tmu with strands := .replicate 4 .none }
       mga := { u.mga with alarms := u.mga.alarms &&& ~~~8#9 } } ∧
     (startInspection k s).mga = (placeInService k s).mga) ∧
   (∀ (s : State) (r : Request) (rest : List Request) (k : Fin 8), Ready s r rest → Asks r 10 0 →
     let u := begun s r rest
     let flushed := flushMap (readyFrom .staged (readyFrom .inService u))
     u.dlb.service = .inspecting → servingSlot u = some k → ∃ t,
       exec .deactivate s = .next (answered r .ok (beNat 1 k.val) t) ∧
       t.mga = { flushed.mga with alarms := flushed.mga.alarms &&& ~~~8#9 }))

/-! ## Line events, marks, cells and pieces -/

/-- While a reset is in progress a level change reaches the pins alone. Otherwise, with no candidate that has
lasted already: a return to the filtered level cancels the candidate, the opposite level becomes the
candidate with the filter time of now when that is not 0, and a candidate that stands is kept.
FILTER_TIME_EXPIRY turns the filtered level once a candidate has lasted, and the edge is an event: BILLET
rising WELD, PRESS_RUN rising START and falling its own, HANDOVER and SAW rising theirs, no other. Before
that it changes nothing (log 3). The candidate keeps the filter time it began with (R145, log 31). With a
filter time of 0 and no candidate a level that differs from the filtered one is the edge at once, with the
same event. A change on a candidate that has lasted acts on the state that FILTER_TIME_EXPIRY of the line
gives (the model’s choice, log 30). -/
def Obligations.EventLinesAreFiltered : Prop :=
  (∀ (l : EventLine) (level : Bool) (s : State),
     let x := s.emu.lines[lineIndex l]
     let changed (c : Option Candidate) : State :=
       { s with pins := s.pins.setLevel l level,
                emu := { s.emu with lines := upd s.emu.lines (lineIndex l) fun y => { y with candidate := c } } }
     (s.inReset = true →
       exec (.eventLineChange l level) s = .next { s with pins := s.pins.setLevel l level }) ∧
     (s.inReset = false → (∀ c, x.candidate = some c → s.now < c.start + c.time) →
       (level = x.level → exec (.eventLineChange l level) s = .next (changed none)) ∧
       (level ≠ x.level → x.candidate = none → 0 < x.time →
         exec (.eventLineChange l level) s = .next (changed (some { start := s.now, time := x.time }))) ∧
       (∀ c, level ≠ x.level → x.candidate = some c →
         exec (.eventLineChange l level) s = .next (changed (some c))))) ∧
  (∀ (l : EventLine) (s : State) (c : Candidate), (s.emu.lines[lineIndex l]).candidate = some c →
     let turned : State := { s with emu := { s.emu with
       lines := upd s.emu.lines (lineIndex l) fun y => { y with level := !y.level, candidate := none } } }
     (c.start + c.time ≤ s.now →
       exec (.filterTimeExpiry l) s = .next
         (match l, !(s.emu.lines[lineIndex l]).level with
          | .billet, true => takeEvent .weld turned
          | .pressRun, true => takeEvent .start turned
          | .pressRun, false => takeEvent .pressRunFalling turned
          | .handover, true => takeEvent .handover turned
          | .saw, true => takeEvent .saw turned
          | _, _ => turned)) ∧
     (s.now < c.start + c.time → exec (.filterTimeExpiry l) s = .next s)) ∧
  (∀ (l : EventLine) (level : Bool) (s : State), s.inReset = false →
     let x := s.emu.lines[lineIndex l]
     (level ≠ x.level → x.candidate = none → x.time = 0 →
       let turned : State := { s with
         pins := s.pins.setLevel l level
         emu := { s.emu with
           lines := upd s.emu.lines (lineIndex l) fun y => { y with level := level, candidate := none } } }
       exec (.eventLineChange l level) s = .next
         (match l, level with
           | .billet, true => takeEvent .weld turned
           | .pressRun, true => takeEvent .start turned
           | .pressRun, false => takeEvent .pressRunFalling turned
           | .handover, true => takeEvent .handover turned
           | .saw, true => takeEvent .saw turned
           | _, _ => turned)) ∧
     (∀ (c : Candidate) (t : State), x.candidate = some c → c.start + c.time ≤ s.now →
       exec (.filterTimeExpiry l) s = .next t →
       exec (.eventLineChange l level) s = exec (.eventLineChange l level) t))

/-- Outside INSPECTING an event is counted and its record, with M and the cells of the geometry, joins queue B
or is dropped and counted from a full one; nothing else changes. While INSPECTING it is counted, worked by
its kind and then reported. A START, after its change of die, and a HANDOVER open a blanking window from M
to M plus the blank length of the die then in service, at the tail of the list, the oldest of four going
first; a blank length of 0 enters none. A SAW cut turns the open piece of every strand in use into a closing
piece whose cut cell is the saw cell and opens a new piece there; with four closing pieces in a strand in
use it is not taken, counted SAW_OVERRUN and alarmed. An alarm whose flag is raised already changes nothing;
otherwise its flag is raised, HEAD_RESTORED and DIE_CHANGED clearing again at once, and its report, with the
raised flags, joins queue A, or is counted ALARM_DROPPED when the frames with any reserved place come to 16. -/
def Obligations.EventsAreCountedAndReported : Prop :=
  (∀ (k : EventKind) (s : State), s.dlb.service ≠ .inspecting →
     let u := countGlobal k.counter s
     let place (f : Geometry → Int) : Word32 :=
       match s.lmp.geometry with
       | some g => BitVec.ofInt 32 (f g)
       | none => 0
     let record : EventRecord :=
       { kind := k, station := s.pos.station
         stationCell := place fun g => (s.pos.station - g.origin) / g.cellLength
         dieCell := place fun g => (s.pos.station - g.origin + g.dieToStation) / g.cellLength
         sawCell := place fun g => (s.pos.station - g.origin - g.stationToSaw) / g.cellLength }
     (s.egs.b.length < 32 →
       takeEvent k s = { u with egs := { u.egs with b := u.egs.b ++
         [{ frameType := s.upl.frameType, source := s.upl.station, dest := none, content := .event record }] } }) ∧
     (32 ≤ s.egs.b.length → takeEvent k s = countGlobal .eventRecordsDropped u)) ∧
  (∀ (k : EventKind) (s : State), s.dlb.service = .inspecting →
     let u := countGlobal k.counter s
     let v := match k with
       | .weld => placeMark .weld u
       | .stop => placeMark .stop u
       | .start => openBlanking (placeMark .start (pushStart u))
       | .pressRunFalling => u
       | .handover => openBlanking u
       | .saw => takeCut u.pos.station u
     takeEvent k s = offerEvent (eventRecordOf k v) v) ∧
  (∀ (s : State) (g : Geometry), s.lmp.geometry = some g →
     let n := seqOf (g.sawCell s.pos.station)
     let t := takeCut s.pos.station s
     ((∃ i ∈ usedStrands s, 4 ≤ (s.pcu.strands[i]).closing.length) →
       t = raiseAlarm .sawOverrun 0 (countGlobal .sawOverrun s)) ∧
     ((∀ i ∈ usedStrands s, (s.pcu.strands[i]).closing.length < 4) →
       (∀ i : Fin 4, t.pcu.strands[i] =
         let p := s.pcu.strands[i]
         if i ∈ usedStrands s then
           { p with
             closing := p.closing ++ (p.openPiece.map fun x => { piece := x, cut := n : ClosingPiece }).toList
             openPiece := some (Piece.new n) }
         else p) ∧
       t = { s with pcu := { s.pcu with strands := t.pcu.strands } })) ∧
  ((∀ (k : AlarmKind) (subject : Nat) (s : State),
     let flags := s.mga.alarms ||| (1#9 <<< k.bit)
     let report : OutFrame := { frameType := s.upl.frameType, source := s.upl.station, dest := none,
                                content := .alarm { kind := k, subject := subject, raised := flags } }
     let after := if k = .headRestored ∨ k = .dieChanged then s.mga.alarms else flags
     (s.mga.alarms.getLsbD k.bit = true → raiseAlarm k subject s = s) ∧
     (s.mga.alarms.getLsbD k.bit = false →
       s.egs.a.length + (if s.egs.reserved then 1 else 0) < 16 →
       raiseAlarm k subject s =
         { s with egs := { s.egs with a := s.egs.a ++ [report] }, mga := { s.mga with alarms := after } }) ∧
     (s.mga.alarms.getLsbD k.bit = false →
       16 ≤ s.egs.a.length + (if s.egs.reserved then 1 else 0) →
       raiseAlarm k subject s =
         countGlobal .alarmDropped { s with mga := { s.mga with alarms := after } })) ∧
   [AlarmKind.headFenced, .headRestored, .runoutReverse, .tempStale, .markMerged, .sawOverrun, .pieceBacklog,
     .pieceLost, .dieChanged].map AlarmKind.bit = List.range 9) ∧
  (∀ s : State,
     let n := (servingDie s).entry.blankLength
     (n = 0 → openBlanking s = s) ∧
     (0 < n →
       openBlanking s = { s with emu := { s.emu with
         blanking := (if s.emu.blanking.length < 4 then s.emu.blanking else s.emu.blanking.tail) ++
           [{ start := s.pos.station, stop := s.pos.station + n }] } }))

/-- Marking a range of cells in a strand changes just the cells of the range that the strand’s ring holds in a
state other than CLOSED, which take the mark; every other cell and every other ring stays. When some cell of
the range is not held open, so that its offer is refused, MARK_TRUNCATED of the strand counts once;
otherwise no counter changes, and nothing else does in either case. A kind’s first mark joins the set, and a
second leaves the more severe of the two consequences, SCRAP above HOLD above NOTE. A cell lies in a range
by its distance from the first cell modulo 2^32 (the model’s reading, log 36). placeMark does nothing for a
disabled window; else the cells from the widened start offset to the end offset are marked in every strand
in use up to the die cell, and those after it become one pending entry. The entry goes after every entry
whose first cell is at or below its own; into a list of 16 it is merged with the entry of greatest last
cell, nearest the tail, with the lesser first and greater last cell, the more severe consequence, and its
kind only when strictly more severe; MARK_MERGED is counted and raised. -/
def Obligations.MarksReachTheOpenCellsOfTheirRange : Prop :=
  (∀ (k : MarkKind) (c : Consequence) (first : Word32) (n : Nat) (t : Fin 4) (s : State),
     let u := markImmediate k c first n t s
     let marked : State := { s with lmp := { s.lmp with rings := u.lmp.rings } }
     let refused : Prop := ∃ m : Nat, m < n ∧
       ∀ x : Cell, (s.lmp.rings[t]).cell (first + BitVec.ofNat 32 m) = some x → x.state = .closed
     (∀ m : Word32, (u.lmp.rings[t]).cell m = ((s.lmp.rings[t]).cell m).map fun x =>
       if (m - first).toNat < n ∧ x.state ≠ .closed then x.mark k c else x) ∧
     (∀ i : Fin 4, i ≠ t → u.lmp.rings[i] = s.lmp.rings[i]) ∧
     u = { marked with ctb := u.ctb } ∧
     ((s.lmp.rings[t]).wf = true →
       (refused → u = countStrand t .markTruncated marked) ∧ (¬ refused → u = marked))) ∧
  (∀ c d : Consequence,
     joinMark c none = some c ∧
     joinMark c (some d) = some
       (if c = .scrap ∨ d = .scrap then .scrap
        else if c = .hold ∨ d = .hold then .hold
        else .note)) ∧
  (∀ (k : MarkKind) (s : State) (g : Geometry), s.lmp.geometry = some g →
     let w := match k with
       | .weld => (servingDie s).weld
       | .stop => (servingDie s).stop
       | .start => (servingDie s).start
     let md := (s.pos.station : Int) - g.origin + g.dieToStation
     let first := (md + w.startOff) / g.cellLength
     let last := (md + w.endOff) / g.cellLength
     let die := md / g.cellLength
     let number (n : Int) : Word32 := BitVec.ofInt 32 n
     (w.endOff < w.startOff → placeMark k s = s) ∧
     (w.startOff ≤ w.endOff →
       let u :=
         if die < first then s
         else forEach (usedStrands s)
           (markImmediate k w.consequence (number first) (min last die - first + 1).toNat) s
       (last ≤ die → placeMark k s = u) ∧
       (die < last → placeMark k s = addPending
         { kind := k, consequence := w.consequence, first := number (max first (die + 1)),
           last := number last } u))) ∧
  ((∀ (e : PendingMark) (before after : List PendingMark),
     (∀ f ∈ before, cellLe f.first e.first = true) → (∀ f ∈ after.head?, cellLe f.first e.first = false) →
     insertPending e (before ++ after) = before ++ e :: after) ∧
   (∀ (e : PendingMark) (s : State),
     let l := s.emu.pending
     let withMarks (m : List PendingMark) : State := { s with emu := { s.emu with pending := m } }
     (l.length < 16 → addPending e s = withMarks (insertPending e l)) ∧
     (16 ≤ l.length → ∀ (base : Word32) (i : Nat) (old : PendingMark), l[i]? = some old →
       let place (n : Word32) : Nat := (n - base).toNat
       (∀ f ∈ l, place f.last < 2 ^ 31) →
       (∀ (j : Nat) (f : PendingMark), l[j]? = some f →
         place f.last ≤ place old.last ∧ (i < j → place f.last < place old.last)) →
       place e.last < 2 ^ 31 → place e.first < 2 ^ 31 → place old.first < 2 ^ 31 →
       let rank (c : Consequence) : Nat := match c with
         | .scrap => 2
         | .hold => 1
         | .note => 0
       let severe : Prop := rank old.consequence < rank e.consequence
       let merged : PendingMark :=
         { kind := if severe then e.kind else old.kind
           consequence := if severe then e.consequence else old.consequence
           first := if place e.first ≤ place old.first then e.first else old.first
           last := if place e.last ≤ place old.last then old.last else e.last }
       addPending e s =
         raiseAlarm .markMerged 0 (countGlobal .markMerged (withMarks (insertPending merged (l.eraseIdx i)))))))

/-- In a ring of canonical form, recycling a cell puts a new one in APPROACH with the serving die’s tag into its
ring slot and leaves every other ring slot. A cell that the station enters becomes LIVE from APPROACH or
UNSEEN. An open cell that crosses the saw is CLOSED with its verdict, reasons and lead gauge, counted under
its verdict and handed to the piece unit; a CLOSED one, or one that the ring does not hold, is left. While
INSPECTING with a geometry, an advance recycles the cells after the old die cell up to the new one, then
enters those of the station, then closes those the saw has left behind, each in ascending order and in
ascending strand order; otherwise it does nothing. A recycled cell takes the marks of the pending entries
that cover it, which leave the list with their last cell, and a PROOF mark when proof sampling selects it. -/
def Obligations.CellsAreRecycledEnteredAndClosed : Prop :=
  (∀ (t : Fin 4) (n : Word32) (s : State), (s.lmp.rings[t]).wf = true →
     (((recycleIn n t s).lmp.rings[t]).cell n =
         some (Cell.made n .approach false (servingDie s).entry.tag) ∧
       ∀ k : Nat, k ≠ slotOf n → ((recycleIn n t s).lmp.rings[t]).at k = (s.lmp.rings[t]).at k) ∧
     (∀ c : Cell, (s.lmp.rings[t]).cell n = some c → t ∈ usedStrands s →
       ((enterCell n s).lmp.rings[t]).cell n =
         some (if c.state = .approach ∨ c.state = .unseen then { c with state := .live } else c)) ∧
     (∀ c : Cell, (s.lmp.rings[t]).cell n = some c → c.state ≠ .closed →
       let r := cellResult (servingDie s) t c
       let u := s.modRing t (Ring.onCell n fun x => { x with state := .closed, result := some r })
       (u.lmp.rings[t]).cell n = some { c with state := .closed, result := some r } ∧
         closeCell n t s = foldCell t n r (countStrand t r.verdict.counter u)) ∧
     ((s.lmp.rings[t]).cell n = none ∨
         (∃ c : Cell, (s.lmp.rings[t]).cell n = some c ∧ c.state = .closed) →
       closeCell n t s = s)) ∧
  ((∀ (old new : Nat) (s : State),
     (s.lmp.geometry = none ∨ s.dlb.service ≠ .inspecting → advanceMap old new s = s) ∧
     (∀ g : Geometry, s.lmp.geometry = some g → s.dlb.service = .inspecting →
       let material (m : Nat) : Int := (m : Int) - g.origin
       let die (m : Nat) : Int := (material m + g.dieToStation) / g.cellLength
       let station (m : Nat) : Int := material m / g.cellLength
       let saw (m : Nat) : Int := (material m - g.stationToSaw) / g.cellLength
       let cells (a b : Int) : List Word32 := (List.range (b - a).toNat).map fun (i : Nat) =>
         BitVec.ofInt 32 (a + 1 + i)
       let recycled := forEach (cells (die old) (die new))
         (fun n u => offerProof n (offerPending n (forEach (usedStrands u) (recycleIn n) u))) s
       let entered := forEach (cells (station old) (station new)) enterCell recycled
       advanceMap old new s = forEach (cells (saw old - 1) (saw new - 1))
         (fun n u => forEach (usedStrands u) (closeCell n) u) entered)) ∧
   (∀ s : State, (usedStrands s).Pairwise (· < ·) ∧
     ∀ t : Fin 4, t ∈ usedStrands s ↔
       ∃ k : Fin 8, servingSlot s = some k ∧ t.val < (s.dlb.slots[k]).record.entry.strandCount) ∧
   (∀ (n : Word32) (s : State),
     (offerPending n s).emu.pending = s.emu.pending.filter (fun e => e.last ≠ n) ∧
     (∀ (t : Fin 4) (c : Cell), t ∈ usedStrands s → (s.lmp.rings[t]).cell n = some c → c.state ≠ .closed →
       ((offerPending n s).lmp.rings[t]).cell n =
         some ((s.emu.pending.filter fun e => cellLe e.first n && cellLe n e.last).foldl
           (fun x e => x.mark e.kind e.consequence) c) ∧
       ((offerProof n s).lmp.rings[t]).cell n =
         some (if s.emu.proofEnable = true ∧ n &&& s.emu.proofMask = s.emu.proofCompare &&& s.emu.proofMask ∧
             s.emu.proofStrands.getLsbD t.val = true then
           { c with marks := { c.marks with proof := some .scrap } } else c))))

/-- A cell that the ring of a strand holds, not yet CLOSED, closes with one result, which it keeps and which is
folded into the pieces. Its verdict is that of the first line that applies, under the die in service: a
SCRAP mark or a SCRAP gauge at the scrap confirm count gives SCRAP; unseen, a HOLD mark or a HOLD gauge at
the hold confirm count gives HOLD; no section with data and none blanked gives what the die’s NODATA
consequence says; a warn, a reject or a NOTE mark gives WARN; else GOOD. Each of the nine reasons is set
just when its condition holds, whichever line decided. The lead gauge is the one with the highest reject
tally, the lowest number among equals, and none when every tally is 0. -/
def Obligations.CellVerdictsFollowTheFirstLine : Prop :=
  ∀ (n : Word32) (t : Fin 4) (s : State) (c : Cell),
    (s.lmp.rings[t]).cell n = some c → c.state ≠ .closed →
    let die := servingDie s
    let marked (q : Consequence) : Prop :=
      c.marks.weld = some q ∨ c.marks.stop = some q ∨ c.marks.start = some q ∨ c.marks.proof = some q
    let confirmed (q : Consequence) (count : Nat) : Prop :=
      ∃ g : Fin 32, ((die.gauges[t])[g]).severity = q ∧ count ≤ c.tallies[g]
    let line1 := marked .scrap ∨ confirmed .scrap die.entry.scrapConfirm
    let line2 := c.unseen = true ∨ marked .hold ∨ confirmed .hold die.entry.holdConfirm
    let line3 := c.withData = 0 ∧ c.blanked = 0
    let line4 := 0 < c.warns ∨ (∃ g : Fin 32, 0 < c.tallies[g]) ∨ marked .note
    ∃ r : CellResult,
      closeCell n t s = foldCell t n r (countStrand t r.verdict.counter
        (s.modRing t (Ring.onCell n fun x => { x with state := .closed, result := some r }))) ∧
      (line1 → r.verdict = .scrap) ∧
      (¬ line1 → line2 → r.verdict = .hold) ∧
      (¬ line1 → ¬ line2 → line3 →
        (die.entry.nodata = .scrap → r.verdict = .scrap) ∧ (die.entry.nodata = .hold → r.verdict = .hold) ∧
          (die.entry.nodata = .note → r.verdict = .warn)) ∧
      (¬ line1 → ¬ line2 → ¬ line3 → line4 → r.verdict = .warn) ∧
      (¬ line1 → ¬ line2 → ¬ line3 → ¬ line4 → r.verdict = .good) ∧
      (r.reasons.getLsbD 0 = true ↔ c.marks.weld ≠ none) ∧ (r.reasons.getLsbD 1 = true ↔ c.marks.stop ≠ none) ∧
      (r.reasons.getLsbD 2 = true ↔ c.marks.start ≠ none) ∧
      (r.reasons.getLsbD 3 = true ↔ c.marks.proof ≠ none) ∧
      (r.reasons.getLsbD 4 = true ↔ (∃ g : Fin 32, 0 < c.tallies[g]) ∨ 0 < c.warns) ∧
      (r.reasons.getLsbD 5 = true ↔ c.unseen = true) ∧ (r.reasons.getLsbD 6 = true ↔ line3) ∧
      (r.reasons.getLsbD 7 = true ↔ 0 < c.blanked ∧ c.withData = 0) ∧
      (r.reasons.getLsbD 8 = true ↔ 0 < c.partials) ∧
      ((∀ g : Fin 32, c.tallies[g] = 0) → r.lead = none) ∧
      (∀ g : Fin 32, 0 < c.tallies[g] → (∀ h : Fin 32, c.tallies[h] ≤ c.tallies[g]) →
        (∀ h : Fin 32, h < g → c.tallies[h] < c.tallies[g]) → r.lead = some g.val)

/-- A closed cell is folded first into each closing piece whose cut cell it is, which then completes under the
scrap limit of the die in service and leaves the list, head to tail, and then into the open piece; other
pieces stay. A fold adds 1 to the cell count and to the count of the verdict and joins the reasons. A HOLD
or SCRAP cell that follows directly on a last zone of its class lengthens it; otherwise it begins a new
zone, or, with eight, the eighth is extended to cover it, SCRAP when the cell is, and the overflow flag set.
The zone takes the cell’s reasons, and its lead gauge while it has none. A completed piece is SCRAP when its
SCRAP cells × 100 reach the scrap limit × its cells, else HOLD with a HOLD cell, TRIM with a SCRAP cell,
ACCEPT otherwise. Its completion takes the strand’s next piece number, and a SCRAP piece alone sets the
strand’s gate to be released one gate hold time after now. GATE_RELEASE releases an asserted gate at its
release time and changes nothing before it or while the gate is released (log 3). A completion counts the
piece under its verdict and enters it, UNSENT and with its number, as the newest log entry; piece reports
are then queued and a backlog raised. A log of 16 entries of the strand first loses the oldest of them; if
that is UNSENT, PIECE_LOST is counted and raised, and then PIECE_BACKLOG clears if no entry is left UNSENT
(the order of log 19). -/
def Obligations.PieceVerdictsAndScrapGates : Prop :=
  ((∀ (limit : Nat) (p : Piece),
     (limit * p.cells ≤ p.scrap * 100 → pieceVerdict limit p = .scrap) ∧
     (p.scrap * 100 < limit * p.cells → 0 < p.hold → pieceVerdict limit p = .hold) ∧
     (p.scrap * 100 < limit * p.cells → p.hold = 0 → 0 < p.scrap → pieceVerdict limit p = .trim) ∧
     (p.scrap * 100 < limit * p.cells → p.hold = 0 → p.scrap = 0 → pieceVerdict limit p = .accept)) ∧
   (∀ (t : Fin 4) (v : PieceVerdict) (p : Piece) (s : State),
     (((completePiece t v p s).pcu.strands[t]).gate =
       if v = .scrap then some (s.now + s.pcu.holdTime * 1000) else (s.pcu.strands[t]).gate) ∧
     ((completePiece t v p s).pcu.strands[t]).next = (s.pcu.strands[t]).next + 1)) ∧
  (∀ (t : Fin 4) (s : State),
     (∀ time, (s.pcu.strands[t]).gate = some time → time ≤ s.now →
       exec (.gateRelease t.val) s = .next (s.modPieces t fun p => { p with gate := none })) ∧
     ((∀ time, (s.pcu.strands[t]).gate = some time → s.now < time) →
       exec (.gateRelease t.val) s = .next s)) ∧
  ((∀ (t : Fin 4) (v : PieceVerdict) (p : Piece) (s : State),
     let counter : StrandCounter := match v with
       | .accept => .piecesAccept
       | .trim => .piecesTrim
       | .hold => .piecesHold
       | .scrap => .piecesScrap
       | .aborted => .piecesAborted
     let c : CompletedPiece := { strand := t, verdict := v, number := (s.pcu.strands[t]).next, piece := p }
     let u := logPiece c (countStrand t counter (s.modPieces t fun q => { q with next := q.next + 1 }))
     completePiece t v p s =
       if v = .scrap then u.modPieces t fun q => { q with gate := some (s.now + s.pcu.holdTime * 1000) } else u) ∧
   (∀ (c : CompletedPiece) (s : State),
     let withLog (l : List LogEntry) (u : State) : State := { u with pcu := { u.pcu with log := l } }
     let enters (u : State) : State :=
       backlogRaiseTest (queuePieceReports (withLog (u.pcu.log ++ [{ completed := c, sent := false }]) u))
     let held := (s.pcu.log.filter fun e => decide (e.completed.strand = c.strand)).length
     (held < 16 → logPiece c s = enters s) ∧
     (16 ≤ held → ∀ (before after : List LogEntry) (e : LogEntry), s.pcu.log = before ++ e :: after →
       (∀ x ∈ before, x.completed.strand ≠ c.strand) → e.completed.strand = c.strand →
       let u := withLog (before ++ after) s
       (e.sent = true → logPiece c s = enters u) ∧
       (e.sent = false →
         let v := raiseAlarm .pieceLost c.strand.val (countStrand c.strand .pieceLost u)
         ((∃ x ∈ before ++ after, x.sent = false) → logPiece c s = enters v) ∧
         ((∀ x ∈ before ++ after, x.sent = true) →
           logPiece c s = enters { v with mga := { v.mga with alarms := v.mga.alarms &&& ~~~64#9 } }))))) ∧
  ((∀ (n : Word32) (r : CellResult) (p : Piece),
     let q := p.fold n r
     let one (v : CellVerdict) : Nat := if r.verdict = v then 1 else 0
     let k := (n - p.first).toNat
     let made (c : ZoneClass) : Zone := { offset := k, length := 1, cls := c, reasons := r.reasons, lead := r.lead }
     q = { p with
       cells := p.cells + 1
       good := p.good + one .good
       warn := p.warn + one .warn
       hold := p.hold + one .hold
       scrap := p.scrap + one .scrap
       reasons := p.reasons ||| r.reasons
       zones := q.zones
       overflow := q.overflow } ∧
     (r.verdict = .good ∨ r.verdict = .warn → q.zones = p.zones ∧ q.overflow = p.overflow) ∧
     (∀ c : ZoneClass, (r.verdict = .hold ∧ c = .hold) ∨ (r.verdict = .scrap ∧ c = .scrap) →
       (p.zones = [] → q.zones = [made c] ∧ q.overflow = p.overflow) ∧
       (∀ (before : List Zone) (z : Zone), p.zones = before ++ [z] →
         let joins : Prop := z.cls = c ∧ z.offset + z.length = k
         let received (length : Nat) (cls : ZoneClass) : List Zone := before ++
           [{ offset := z.offset, length := length, cls := cls, reasons := z.reasons ||| r.reasons
              lead := if z.lead = none then r.lead else z.lead }]
         (joins → q.zones = received (z.length + 1) c ∧ q.overflow = p.overflow) ∧
         (¬ joins → p.zones.length < 8 → q.zones = p.zones ++ [made c] ∧ q.overflow = p.overflow) ∧
         (¬ joins → 8 ≤ p.zones.length →
           q.zones = received (k - z.offset + 1) (if c = .scrap then .scrap else z.cls) ∧ q.overflow = true)))) ∧
   (∀ (t : Fin 4) (n : Word32) (r : CellResult) (s : State),
     let p := s.pcu.strands[t]
     let mine := p.closing.filter fun c => decide (c.cut = n)
     let others := p.closing.filter fun c => decide (c.cut ≠ n)
     let limit := (servingDie s).entry.scrapLimit
     let complete (u : State) (c : ClosingPiece) : State :=
       completePiece t (pieceVerdict limit (c.piece.fold n r)) (c.piece.fold n r) u
     let u := foldCell t n r s
     u = (mine.foldl complete (s.modPieces t fun x => { x with closing := others })).modPieces t
       (fun x => { x with openPiece := x.openPiece.map (Piece.fold n r) }) ∧
     (u.pcu.strands[t]).closing = others ∧
     (u.pcu.strands[t]).openPiece = p.openPiece.map (Piece.fold n r) ∧
     (u.pcu.strands[t]).next = p.next + BitVec.ofNat 32 mine.length ∧
     ∀ i : Fin 4, i ≠ t → u.pcu.strands[i] = s.pcu.strands[i]))

/-- A deviation outside the reject limits is REJECT, else outside the warn limits WARN, else GOOD, a deviation
at a limit falling in the better band, whatever the severity. The shrink value is entry 32 from 640.0 °C on
and otherwise interpolated between two neighbouring entries, lying between them. The cold value of h under s
is h − rounded(h × s / 65536), symmetric about zero; with s at most 8191 it never exceeds h in magnitude,
keeps the sign of a nonzero h and is 0 for 0. A gauge with a hot value has the cold value of it under the
shrink value that the slot holds for its strand when it is thermal, the hot value otherwise; its deviation
is that less the nominal, saturated, and its band that of the deviation. -/
def Obligations.BandsAndColdValuesFollowTheirFormulas : Prop :=
  (∀ (g : Gauge) (d : Int),
     (d < g.rejLo ∨ g.rejHi < d → bandOf g d = .reject) ∧
     (g.rejLo ≤ d → d ≤ g.rejHi → d < g.warnLo ∨ g.warnHi < d → bandOf g d = .warn) ∧
     (g.rejLo ≤ d → d ≤ g.rejHi → g.warnLo ≤ d → d ≤ g.warnHi → bandOf g d = .good) ∧
     (∀ severity, bandOf { g with severity := severity } d = bandOf g d)) ∧
  (∀ (copy : Vector Nat 33) (temp : Nat),
     (6400 ≤ temp → shrinkAt copy temp = copy[32]) ∧
     (∀ i : Fin 32, temp / 200 = i.val →
       let low := copy[i.castSucc]
       let high := copy[i.succ]
       (shrinkAt copy temp : Int) = low + roundedDiv (((high : Int) - low) * (temp % 200 : Nat)) 200 ∧
       min low high ≤ shrinkAt copy temp ∧ shrinkAt copy temp ≤ max low high)) ∧
  (∀ (h : Int) (s : Nat),
     coldEquivalent h s = h - roundedDiv (h * s) 65536 ∧
     coldEquivalent (-h) s = -coldEquivalent h s ∧
     (s ≤ 8191 →
       (coldEquivalent h s).natAbs ≤ h.natAbs ∧ (0 < h → 0 < coldEquivalent h s) ∧
       (h < 0 → coldEquivalent h s < 0) ∧ (h = 0 → coldEquivalent h s = 0))) ∧
  (∀ (die : DieRecord) (slot : Slot) (t : Fin 4) (n : Fin 32) (h : Int),
     let g := (die.gauges[t])[n]
     let r := gaugeResult die slot t n
     hotValue die slot t g = some h →
       (g.thermal = true →
         r.deviation = saturate 8388607 (coldEquivalent h (slot.temps[t]).shrink - g.nominal)) ∧
       (g.thermal = false → r.deviation = saturate 8388607 (h - g.nominal)) ∧
       r.band = bandOf g r.deviation)

/-! ## Requests at the management agent -/

/-- Each of the rows that take a request leaves the state as it is when another row’s request stands at the head
of the input queue, when the queue is empty, while a reset is in progress, while a RESET waits, and while
the frames of queue A with any reserved place come to 16. Which row a request belongs to follows its command
number, the first item of a SET_CONFIG and the operation of a COUNTERS request (the model’s choices, log 3,
log 5 and log 6). That none is taken during a reset, or while the soft reset is due, is the model’s choice
too (log 29, log 27). -/
def Obligations.RequestsAreTakenByTheirOwnRowAlone : Prop :=
  ∀ (s : State) (c : Instr), c ∈ managementRows →
    (∀ r rest, s.mga.input = r :: rest → c ≠ rowOf r → exec c s = .next s) ∧
    (s.mga.input = [] → exec c s = .next s) ∧
    (s.inReset = true ∨ s.mga.reset ≠ .none ∨ 16 ≤ queueALoad s → exec c s = .next s)

/-- A taken request whose source the binding shuts out is answered NOT_BOUND with no data and changes nothing
else, the table window kept. A ready request whose argument size is not its command’s is answered
BAD_FORMAT, and one of a command number outside 1 to 16 BAD_COMMAND whatever its arguments, with no data and
no effect but the closing of an open window, which GET_CONFIG and TABLE_DATA keep. Under FIRST with no bound
address a taken request binds its source. The row that a malformed SET_CONFIG or COUNTERS request is taken
as is the model’s choice (log 6). -/
def Obligations.UnboundAndUnsoundRequestsAreRefused : Prop :=
  (∀ (s : State) (r : Request) (rest : List Request), Taken s r rest → ¬ Bound s r.source →
     exec (rowOf r) s = .next (answered r .notBound [] (claimed s r rest))) ∧
  (∀ (s : State) (r : Request) (rest : List Request), Ready s r rest →
     (sizeSound r.command r.args.length = false →
       exec (rowOf r) s = .next (answered r .badFormat [] (begun s r rest))) ∧
     (r.command = 0 ∨ 16 < r.command.toNat →
       exec .badCommand s = .next (answered r .badCommand [] (begun s r rest))))

/-- For every request that the agent takes, the row of the request answers a next state in which the request has
left the input queue, no place of queue A is reserved, and the last frame of queue A is a response to the
request’s source with its tag and its command number. Which row a request is, is the model’s choice (log 6). -/
def Obligations.EveryTakenRequestIsAnsweredByItsRow : Prop :=
  ∀ (s : State) (r : Request) (rest : List Request), Taken s r rest →
    ∃ (t : State) (before : List OutFrame) (ft : BitVec 16) (source : Address) (st : Status) (data : List Byte),
      exec (rowOf r) s = .next t ∧ t.mga.input = rest ∧ t.egs.reserved = false ∧
      t.egs.a = before ++
        [{ frameType := ft, source := source, dest := some r.source,
           content := .response r.tag r.command st data }]

/-- IDENTIFY returns the part code 2480, the revision 1, the strap value, the station address, the binding mode,
the bound address or none, and the service state, and changes nothing beyond the closing of the table
window. CLEAR_ALARMS returns the nine flags as they stood and clears them all, making no report. RESET is
answered OK and the agent then waits for that response to be sent. Each in every service state. The widths
of the fields are the model’s choice (log 21). -/
def Obligations.IdentifyClearAlarmsAndResetAnswer : Prop :=
  (∀ (s : State) (r : Request) (rest : List Request), Ready s r rest →
     let u := begun s r rest
     (Asks r 1 0 →
       exec .identify s = .next (answered r .ok
         (beNat 2 2480 ++ beNat 1 1 ++ beNat 1 u.upl.straps.toNat ++ beNat 6 u.upl.station.toNat ++
           beNat 1 (match u.mga.mode with | .openMode => 0 | .first => 1 | .fixed => 2) ++
           (match u.mga.bound with | none => beNat 1 0 | some a => beNat 1 1 ++ beNat 6 a.toNat) ++
           beNat 1 (match u.dlb.service with | .unconfigured => 0 | .idle => 1 | .inspecting => 2)) u)) ∧
     (Asks r 15 0 →
       exec .clearAlarms s =
         .next (answered r .ok (beNat 2 u.mga.alarms.toNat) { u with mga := { u.mga with alarms := 0 } }))) ∧
  (∀ (s : State) (r : Request) (rest : List Request), Ready s r rest → Asks r 16 0 →
     let u := begun s r rest
     exec .reset s = .next (answered r .ok [] { u with mga := { u.mga with reset := .waiting } }))

/-! ## Geometry, heads and dies -/

/-- SET_GEOMETRY is refused with STATE while INSPECTING, with RANGE and no data for a distance outside its
range, and with RANGE and the derived partition when 4096 − A − V falls below 64, where A = ceil(D_ds / L),
at least 1, and V = ceil(D_ss / L) + 1, at least 2. Otherwise it is answered OK: the geometry is stored with
M0 = M − D_ss, the map flushed, and the part IDLE. The widths of the partition fields are the model’s choice
(log 21). -/
def Obligations.SetGeometryStoresOrRefuses : Prop :=
  ∀ (s : State) (r : Request) (rest : List Request), Ready s r rest → Asks r 4 10 →
    let u := begun s r rest
    let L := natAt r.args 0 2
    let ds := natAt r.args 2 4
    let ss := natAt r.args 6 4
    let A := max 1 (ceilDiv ds L)
    let V := max 2 (ceilDiv ss L + 1)
    let fits := 20 ≤ L ∧ L ≤ 5000 ∧ ds ≤ 2000000 ∧ ss ≤ 500000
    (s.dlb.service = .inspecting → exec .setGeometry s = .next (answered r .state [] u)) ∧
    (s.dlb.service ≠ .inspecting → ¬ fits → exec .setGeometry s = .next (answered r .range [] u)) ∧
    (s.dlb.service ≠ .inspecting → fits → 4096 < A + V + 64 →
      exec .setGeometry s = .next (answered r .range
        (beNat 3 A ++ beNat 2 V ++ beInt 3 (4096 - A - V)) u)) ∧
    (s.dlb.service ≠ .inspecting → fits → A + V + 64 ≤ 4096 →
      let v := flushMap { u with lmp := { u.lmp with
        geometry := some { cellLength := L, dieToStation := ds, stationToSaw := ss,
                           origin := (s.pos.station : Int) - ss } } }
      exec .setGeometry s = .next (answered r .ok [] { v with dlb := { v.dlb with service := .idle } }))

/-- With a geometry set, a flush makes M0 = M − D_ss, sets each ring in use to cells 0 up to the die cell,
UNSEEN, with the serving die’s tag, and empties every other ring; section slots, evaluator, pending marks
and closing pieces are emptied, blanking windows that end at or below M removed, and each strand in use has
a new open piece from cell 0. Position, library, triggers, temperatures, heads and ports stay. The numbers
of the held slots join the void list in the order of their open times, the lower slot first of equal times
(log 18). Strand by strand, each closing piece completes ABORTED, head to tail, as it stands, with the next
piece number and a log entry, and asserts no gate; an open piece is discarded and leaves neither. A FLUSH
request is refused with STATE in UNCONFIGURED and otherwise flushes the map and is answered OK. -/
def Obligations.FlushesRebuildTheMap : Prop :=
  (∀ (s : State) (g : Geometry), s.lmp.geometry = some g → 0 < g.cellLength →
     let t := flushMap s
     t.lmp.geometry = some { g with origin := (s.pos.station : Int) - g.stationToSaw } ∧
     (∀ n : Fin 4, t.lmp.rings[n] =
       if n ∈ usedStrands s then
         (List.range (min ((g.stationToSaw + g.dieToStation) / g.cellLength + 1) 4096)).map fun i =>
           (i, Cell.made (BitVec.ofNat 32 i) .unseen true (servingDie s).entry.tag)
       else []) ∧
     (∀ i : Fin 16, t.sau.slots[i] = Slot.empty) ∧
     t.gev = { queue := [], current := none } ∧ t.emu.pending = [] ∧
     t.emu.blanking = s.emu.blanking.filter (fun w => decide (s.pos.station < w.stop)) ∧
     (∀ n : Fin 4, (t.pcu.strands[n]).closing = [] ∧
       (t.pcu.strands[n]).openPiece = if n ∈ usedStrands s then some (Piece.new 0) else none) ∧
     t.pos = s.pos ∧ t.dlb = s.dlb ∧ t.trg = s.trg ∧ t.tmu = s.tmu ∧ t.heads = s.heads ∧ t.ports = s.ports) ∧
  (∀ s : State,
     let t := flushMap s
     let opened (i : Fin 16) : Nat := (s.sau.slots[i]).openTime
     let void (l : List (BitVec 16)) (q : BitVec 16) : List (BitVec 16) :=
       (if l.length < 16 then l else l.tail) ++ [q]
     let abort (i : Fin 4) (u : State) (c : ClosingPiece) : State := completePiece i .aborted c.piece u
     let abortAll (u : State) (i : Fin 4) : State :=
       (s.pcu.strands[i]).closing.foldl (abort i)
         (u.modPieces i fun x => { x with closing := [], openPiece := none })
     let renew (u : State) (i : Fin 4) : State :=
       u.modPieces i fun x => { x with openPiece := some (Piece.new 0) }
     (∀ order : List (Fin 16), (∀ i : Fin 16, i ∈ order ↔ (s.sau.slots[i]).state ≠ .free) →
       order.Pairwise (fun i j => opened i < opened j ∨ (opened i = opened j ∧ i < j)) →
       t.sau.voidList = (order.map fun i => (s.sau.slots[i]).seq).foldl void s.sau.voidList) ∧
     t.sau = { s.sau with slots := t.sau.slots, voidList := t.sau.voidList } ∧
     t = { (usedStrands s).foldl renew
         ([0, 1, 2, 3].foldl abortAll { s with lmp := t.lmp, sau := t.sau, gev := t.gev }) with emu := t.emu } ∧
     t.emu = { s.emu with pending := t.emu.pending, blanking := t.emu.blanking } ∧
     ∀ i : Fin 4,
       (t.pcu.strands[i]).next =
         (s.pcu.strands[i]).next + BitVec.ofNat 32 (s.pcu.strands[i]).closing.length ∧
       (t.pcu.strands[i]).gate = (s.pcu.strands[i]).gate) ∧
  (∀ (s : State) (r : Request) (rest : List Request), Ready s r rest → Asks r 11 0 →
     let u := begun s r rest
     (u.dlb.service = .unconfigured → exec .flush s = .next (answered r .state [] u)) ∧
     (u.dlb.service ≠ .unconfigured → exec .flush s = .next (answered r .ok [] (flushMap u))))

/-- SET_HEAD_STATE of a head id 0 to 15 and OFF, LISTEN or MEASURE is answered OK from any present state: the
head takes the state, its miss run and restore run become 0, and the HEAD_FENCED flag clears when the head
was FENCED and none remains so. A head id above 15, FENCED or any other state value is refused with
BAD_VALUE and changes nothing else. -/
def Obligations.SetHeadStateTakesThreeStates : Prop :=
  ∀ (s : State) (r : Request) (rest : List Request), Ready s r rest → Asks r 5 2 →
    let u := begun s r rest
    (∀ (h : Fin 16) (st : HeadState), r.arg 0 = h.val →
      (r.arg 1 = 0 ∧ st = .off) ∨ (r.arg 1 = 1 ∧ st = .listen) ∨ (r.arg 1 = 2 ∧ st = .measure) →
      let v := u.modHead h fun x => { x with state := st, missRun := 0, restoreRun := 0 }
      exec .setHeadState s = .next (answered r .ok []
        (if (s.heads[h]).state = .fenced ∧ (∀ j : Fin 16, (v.heads[j]).state ≠ .fenced) then
           { v with mga := { v.mga with alarms := v.mga.alarms &&& ~~~ 1#9 } }
         else v))) ∧
    (15 < r.arg 0 ∨ 2 < r.arg 1 → exec .setHeadState s = .next (answered r .badValue [] u))

/-- SELECT_DIE of a slot above 7 is refused with BAD_VALUE. Otherwise, once an open window has been closed, a
READY slot is placed in service in IDLE and staged in INSPECTING, and the response gives the slot, the
outcome IN_SERVICE or STAGED, and the die tag and name of its record; in UNCONFIGURED, and for a slot in any
other state, the request is refused with STATE. A refused request changes no slot and no staging. The codes
of the outcome are the model’s choice (log 21). -/
def Obligations.SelectDiePlacesOrStagesAReadySlot : Prop :=
  ∀ (s : State) (r : Request) (rest : List Request), Ready s r rest → Asks r 9 1 →
    let u := begun s r rest
    (7 < r.arg 0 → exec .selectDie s = .next (answered r .badValue [] u)) ∧
    (∀ k : Fin 8, r.arg 0 = k.val →
      let e := (u.dlb.slots[k]).record.entry
      let said (outcome : Nat) : List Byte :=
        beNat 1 k.val ++ beNat 1 outcome ++ beNat 4 e.tag.toNat ++ e.name.toList
      ((u.dlb.slots[k]).state = .ready → u.dlb.service = .idle →
        exec .selectDie s = .next (answered r .ok (said 0) (startInspection k u))) ∧
      ((u.dlb.slots[k]).state = .ready → u.dlb.service = .inspecting →
        exec .selectDie s = .next (answered r .ok (said 1) (stageDie k u))) ∧
      ((u.dlb.slots[k]).state ≠ .ready ∨ u.dlb.service = .unconfigured →
        exec .selectDie s = .next (answered r .state [] u)))

/-- Staging a slot changes slot states alone: the slot is STAGED and one STAGED before is READY. A die placed in
service from IDLE: its slot is IN_SERVICE, the part INSPECTING, the map flushed, the pending curves in use,
the temperature records NONE, the triggers armed in their mode, the stillness timer started. A push start
changes the die to the staged slot, and with none staged takes the pending curves into use and does nothing
else. At a change the staged slot is IN_SERVICE and the former one READY, with the curves and temperature
records as before, the triggers and the stillness timer running on, and DIE_CHANGED reported. -/
def Obligations.DiesAreStagedAndPlaced : Prop :=
  (∀ (k : Fin 8) (s : State),
     (∀ j : Fin 8, (stageDie k s).dlb.slots[j] =
       if j = k then { s.dlb.slots[j] with state := .staged }
       else if (s.dlb.slots[j]).state = .staged then { s.dlb.slots[j] with state := .ready }
       else s.dlb.slots[j]) ∧
     stageDie k s = { s with dlb := { s.dlb with slots := (stageDie k s).dlb.slots } }) ∧
  (∀ (k : Fin 8) (s : State),
     let t := startInspection k s
     t.dlb.service = .inspecting ∧
     (∀ j : Fin 8, t.dlb.slots[j] =
       if j = k then { s.dlb.slots[j] with state := .inService }
       else if (s.dlb.slots[j]).state = .inService then { s.dlb.slots[j] with state := .ready }
       else s.dlb.slots[j]) ∧
     (∀ n : Fin 4, t.tmu.curves[n] = { s.tmu.curves[n] with inUse := (s.tmu.curves[n]).pending }) ∧
     t.tmu.strands = Vector.replicate 4 .none ∧
     t.emu.stillness = .running (s.now + s.emu.stillTime * 1000) ∧
     (s.trg.mode = .pitch →
       t.trg = { s.trg with grid := s.pos.station, deferred := false, timer := none }) ∧
     (s.trg.mode = .time →
       t.trg = { s.trg with deferred := false, timer := some (s.now + s.trg.period) }) ∧
     t.lmp.rings =
       (flushMap (setDieState k .inService (readyFrom .inService s))).lmp.rings ∧
     t.ports = s.ports ∧ t.pos = s.pos ∧ t.heads = s.heads) ∧
  (∀ (k : Fin 8) (s : State),
     let t := changeDie k s
     (∀ j : Fin 8, t.dlb.slots[j] =
       if j = k then { s.dlb.slots[j] with state := .inService }
       else if (s.dlb.slots[j]).state = .inService then { s.dlb.slots[j] with state := .ready }
       else s.dlb.slots[j]) ∧
     t.dlb.service = s.dlb.service ∧ t.trg = s.trg ∧ t.emu.stillness = s.emu.stillness ∧
     (∀ n : Fin 4, t.tmu.curves[n] = { s.tmu.curves[n] with inUse := (s.tmu.curves[n]).pending }) ∧
     t.tmu.strands = Vector.replicate 4 .none ∧
     t = raiseAlarm .dieChanged k.val (placeInService k s)) ∧
  (∀ s : State,
     (∀ k : Fin 8, stagedSlot s = some k →
       (s.dlb.slots[k]).state = .staged ∧ pushStart s = changeDie k s) ∧
     (stagedSlot s = none →
       (∀ k : Fin 8, (s.dlb.slots[k]).state ≠ .staged) ∧
       pushStart s = { s with tmu := { s.tmu with curves := (pushStart s).tmu.curves } } ∧
       ∀ n : Fin 4, (pushStart s).tmu.curves[n] =
         { s.tmu.curves[n] with inUse := (s.tmu.curves[n]).pending }))

/-- DEACTIVATE is refused with STATE unless the part is INSPECTING. Otherwise it is answered with the slot that
served: the part is IDLE, the IN_SERVICE and STAGED slots READY, the map flushed with no die in service, the
triggers stopped, the stillness timer HALTED; temperature records, curves, position, heads and ports stay. -/
def Obligations.DeactivateEndsInspection : Prop :=
  ∀ (s : State) (r : Request) (rest : List Request), Ready s r rest → Asks r 10 0 →
    let u := begun s r rest
    (u.dlb.service ≠ .inspecting → exec .deactivate s = .next (answered r .state [] u)) ∧
    (u.dlb.service = .inspecting → ∀ k : Fin 8, servingSlot u = some k → ∃ t,
      exec .deactivate s = .next (answered r .ok (beNat 1 k.val) t) ∧
      t.dlb.service = .idle ∧
      (∀ j : Fin 8, t.dlb.slots[j] =
        if (u.dlb.slots[j]).state = .inService ∨ (u.dlb.slots[j]).state = .staged then
          { u.dlb.slots[j] with state := .ready }
        else u.dlb.slots[j]) ∧
      t.trg = { u.trg with deferred := false, timer := none } ∧ t.tmu = u.tmu ∧
      t.emu.stillness = .halted ∧
      t.lmp = (flushMap (readyFrom .staged (readyFrom .inService u))).lmp ∧
      t.pos = u.pos ∧ t.heads = u.heads ∧ t.ports = u.ports)

/-! ## Tables -/

/-- TABLE_OPEN is refused with BAD_VALUE for a target that does not exist (the table, number, part and strand
name HEADS by 1, CURVE 0 to 3 by 2, DIE 0 to 7 by 3 with part HEADER 1, MARKS 2, WINDOWS 3 or GAUGES 4, the
strand 0 to 3 for these two, part and strand 0 where a target has none; the number is not looked at for
HEADS, log 24), with RANGE for entries that are not in it (16 heads, 33 points, 5 header, 3 mark, 64 window,
32 gauge entries), with IN_USE for a slot in service or staged; otherwise it is answered with first and last
entry, the window is open on the target with its pointer at the first entry, and a die slot is LOADING, an
EMPTY one with the blank record. A window that closes changes nothing but its slot, which becomes READY with
no fault, or FAULTY with the number, strand and entry of the first failed check. The record passes the nine
checks in the order of their numbers, or the fault is that of the first check that fails: without strand and
entry for checks 1, 2 and 9; for the others the first strand below the strand count and in it the first
entry that fails, for check 3 its descriptor t + 1, for check 6 the head id. -/
def Obligations.TableWindowsOpenAndClose : Prop :=
  (∀ (s : State) (r : Request) (rest : List Request), Ready s r rest → Asks r 6 6 →
     let u := begun s r rest
     let first := r.arg 4
     let last := r.arg 5
     (targetOf (r.arg 0) (r.arg 1) (r.arg 2) (r.arg 3) = none →
       exec .tableOpen s = .next (answered r .badValue [] u)) ∧
     (∀ w : Target, targetOf (r.arg 0) (r.arg 1) (r.arg 2) (r.arg 3) = some w →
       (last < first ∨ w.entries ≤ last → exec .tableOpen s = .next (answered r .range [] u)) ∧
       (first ≤ last → last < w.entries →
         let v : State := { u with mga := { u.mga with
           window := { target := some w, pointer := first, last := last, overrun := 0 } } }
         (w.slot = none →
           exec .tableOpen s = .next (answered r .ok (beNat 1 first ++ beNat 1 last) v)) ∧
         (∀ k : Fin 8, w.slot = some k →
           ((u.dlb.slots[k]).state = .inService ∨ (u.dlb.slots[k]).state = .staged →
             exec .tableOpen s = .next (answered r .inUse [] u)) ∧
           ((u.dlb.slots[k]).state ≠ .inService → (u.dlb.slots[k]).state ≠ .staged →
             exec .tableOpen s = .next (answered r .ok (beNat 1 first ++ beNat 1 last)
               (v.modDie k fun d =>
                 { d with state := .loading
                          record := if d.state = .empty then .blank else d.record }))))))) ∧
  (∀ (s : State) (w : Target), s.mga.window.target = some w →
     let u := { s with mga := { s.mga with window := { s.mga.window with target := none } } }
     (w.slot = none → closeWindow s = u) ∧
     (∀ k : Fin 8, w.slot = some k →
       let fault := validate s.tmu.curves s.heads (s.dlb.slots[k]).record
       (fault = none → closeWindow s = u.modDie k fun d =>
         { d with state := .ready, faultNumber := none, faultStrand := none, faultEntry := none }) ∧
       (∀ f : CheckFault, fault = some f → closeWindow s = u.modDie k fun d =>
         { d with state := .faulty, faultNumber := some f.number, faultStrand := f.strand,
                  faultEntry := f.entry }))) ∧
  (∀ (curves : Vector Curve 4) (heads : Vector Head 16) (r : DieRecord),
     let d := r.entry
     let whole (n : Nat) : Prop := match n with
       | 1 => 1 ≤ d.strandCount ∧ d.strandCount ≤ 4
       | 2 => ∀ i : Fin 33, (curves[d.curve]).written.getLsbD i.val = true
       | 9 => 1 ≤ d.scrapConfirm ∧ d.scrapConfirm ≤ 15 ∧ 1 ≤ d.holdConfirm ∧ d.holdConfirm ≤ 15 ∧
           1 ≤ d.scrapLimit ∧ d.scrapLimit ≤ 100
       | _ => True
     let item (n : Nat) (t : Fin 4) (i : Nat) : Prop := match n with
       | 3 => i = t.val + 1
       | 4 => i < (r.strands[t]).windowCount ∧ i < 64
       | 5 => i < (r.strands[t]).windowCount ∧ i < 64
       | 6 => i < 16 ∧ (r.strands[t]).heads.getLsbD i = true
       | 7 => i < (r.strands[t]).gaugeCount ∧ i < 32
       | 8 => i < (r.strands[t]).gaugeCount ∧ i < 32
       | _ => False
     let sound (n : Nat) (t : Fin 4) (i : Nat) : Prop :=
       let x := r.strands[t]
       match n with
       | 3 => 1 ≤ x.windowCount ∧ x.windowCount ≤ 64 ∧ 1 ≤ x.gaugeCount ∧ x.gaugeCount ≤ 32
       | 4 => ∀ k : Fin 64, k.val = i →
           let w := (r.windows[t])[k]
           w.xLo ≤ w.xHi ∧ w.yLo ≤ w.yHi
       | 5 => ∀ k : Fin 64, k.val = i → ∀ h : Fin 16,
           ((r.windows[t])[k]).heads.getLsbD h.val = true → x.heads.getLsbD h.val = true
       | 6 => ∀ h : Fin 16, h.val = i → (heads[h]).written = true ∧ (heads[h]).cal.strand = t
       | 7 => ∀ k : Fin 32, k.val = i →
           let g := (r.gauges[t])[k]
           g.windowA < x.windowCount ∧ (g.kind = .span → g.windowB < x.windowCount)
       | 8 => ∀ k : Fin 32, k.val = i →
           let g := (r.gauges[t])[k]
           g.rejLo ≤ g.warnLo ∧ g.warnLo ≤ 0 ∧ 0 ≤ g.warnHi ∧ g.warnHi ≤ g.rejHi
       | _ => True
     let fails (n : Nat) (t : Fin 4) (i : Nat) : Prop := t.val < d.strandCount ∧ item n t i ∧ ¬ sound n t i
     let passes (n : Nat) : Prop := whole n ∧ ∀ (t : Fin 4) (i : Nat), ¬ fails n t i
     ((∀ n : Nat, passes n) → validate curves heads r = none) ∧
     (∀ n : Nat, (∀ m : Nat, m < n → passes m) →
       (¬ whole n → validate curves heads r = some { number := n, strand := none, entry := none }) ∧
       (∀ (t : Fin 4) (i : Nat), fails n t i →
         (∀ (u : Fin 4) (j : Nat), fails n u j → t < u ∨ (t = u ∧ i ≤ j)) →
         validate curves heads r = some { number := n, strand := some t.val, entry := some i }))) ∧
  ((∀ number : Nat, targetOf 1 number 0 0 = some .heads) ∧
   (∀ n : Fin 4, targetOf 2 n.val 0 0 = some (.curve n)) ∧
   (∀ k : Fin 8,
     targetOf 3 k.val 1 0 = some (.die k .header) ∧ targetOf 3 k.val 2 0 = some (.die k .marks) ∧
     ∀ t : Fin 4, targetOf 3 k.val 3 t.val = some (.die k (.windows t)) ∧
       targetOf 3 k.val 4 t.val = some (.die k (.gauges t))) ∧
   (∀ table number part strand : Nat,
     let plain := part = 0 ∧ strand = 0
     let ofStrand := (part = 3 ∨ part = 4) ∧ strand < 4
     let ofDie := (part = 1 ∨ part = 2) ∧ strand = 0
     ¬ ((table = 1 ∧ plain) ∨ (table = 2 ∧ number < 4 ∧ plain) ∨ (table = 3 ∧ number < 8 ∧ (ofDie ∨ ofStrand))) →
     targetOf table number part strand = none) ∧
   (Target.heads.entries = 16 ∧ Target.heads.slot = none ∧ ∀ (n : Fin 4) (k : Fin 8) (t : Fin 4),
     (Target.curve n).entries = 33 ∧ (Target.die k .header).entries = 5 ∧ (Target.die k .marks).entries = 3 ∧
     (Target.die k (.windows t)).entries = 64 ∧ (Target.die k (.gauges t)).entries = 32 ∧
     (Target.curve n).slot = none ∧ ∀ part : DiePart, (Target.die k part).slot = some k))

/-- TABLE_DATA with no window open is refused with STATE. With no entries it answers zero counts, the pointer
and the overrun count. A single entry at or before the last entry is stored or refused by the rule of its
table, and the pointer advances either way; beyond the last it is discarded and counted in the overrun
count. Up to 32 entries of 40 bytes are taken one after another, each in the state that the one before it
left: one stored is counted, one stored clamped counted as such too, one refused is counted and the first
gives its position and status, one beyond the last is counted in the overrun count, at most 65535. The
response gives stored and refused, the first refused position or none, clamped, pointer and overrun. A
refused entry’s position counts from 0 (the model’s reading, log 38). -/
def Obligations.TableDataTakesEntriesAtThePointer : Prop :=
  (∀ (s : State) (r : Request) (rest : List Request), Ready s r rest → r.command = 7 →
     let u := begun s r rest
     let w := s.mga.window
     (∀ n : Nat, n ≤ 32 → r.args.length = 40 * n → s.mga.window.target = none →
       exec .tableData s = .next (answered r .state [] u)) ∧
     (∀ x : Target, w.target = some x → r.args = [] →
       exec .tableData s =
         .next (answered r .ok ([0, 0, 0, 0] ++ beNat 1 w.pointer ++ beNat 2 w.overrun) u)) ∧
     (∀ x : Target, w.target = some x → r.args.length = 40 → w.last < w.pointer →
       let total := min 65535 (w.overrun + 1)
       exec .tableData s =
         .next (answered r .ok ([0, 0, 0, 0] ++ beNat 1 w.pointer ++ beNat 2 total)
           { u with mga := { u.mga with window := { w with overrun := total } } })) ∧
     (∀ x : Target, w.target = some x → r.args.length = 40 → w.pointer ≤ w.last →
       let moved (v : State) : State := { v with mga := { v.mga with
         window := { w with pointer := w.pointer + 1 } } }
       let tail := beNat 1 (w.pointer + 1) ++ beNat 2 w.overrun
       (∀ st, writeEntry x w.pointer r.args u = .refused st → st ≠ .ok →
         exec .tableData s = .next (answered r st ([0, 1, 1, 0, 0] ++ tail) (moved u))) ∧
       (∀ (c : Bool) (v : State), writeEntry x w.pointer r.args u = .stored c v →
         exec .tableData s =
           .next (answered r .ok ([1, 0, 0] ++ [if c then 1 else 0] ++ tail) (moved v)))) ∧
     (∀ (x : Target) (n : Nat), w.target = some x → 0 < n → n ≤ 32 → r.args.length = 40 * n →
       let done := (tableRecords r.args).zipIdx.foldl takeEntry
         ({ stored := 0, refusals := 0, firstRefused := none, clamped := 0, status := .ok }, u)
       exec .tableData s =
         .next (answered r done.1.status (done.1.bytes done.2.mga.window) done.2))) ∧
  ((∀ (a : DataAccount) (s : State) (record : List Byte) (position : Nat) (target : Target),
     s.mga.window.target = some target →
     let w := s.mga.window
     let moved (v : State) : State := { v with mga := { v.mga with window := { w with pointer := w.pointer + 1 } } }
     (w.pointer ≤ w.last →
       (∀ st : Status, writeEntry target w.pointer record s = .refused st →
         takeEntry (a, s) (record, position) =
           ({ a with refusals := a.refusals + 1
                     firstRefused := match a.firstRefused with
                       | some p => some p
                       | none => some position
                     status := if a.status = .ok then st else a.status }, moved s)) ∧
       (∀ (clamped : Bool) (v : State), writeEntry target w.pointer record s = .stored clamped v →
         takeEntry (a, s) (record, position) =
           ({ a with stored := a.stored + 1, clamped := a.clamped + if clamped then 1 else 0 }, moved v))) ∧
     (w.last < w.pointer → takeEntry (a, s) (record, position) =
       (a, { s with mga := { s.mga with window := { w with overrun := min 65535 (w.overrun + 1) } } }))) ∧
   (∀ (a : DataAccount) (w : TableWindow), a.bytes w =
     beNat 1 a.stored ++ beNat 1 a.refusals ++ (a.firstRefused.elim [0] fun p => 1 :: beNat 1 p) ++
       beNat 1 a.clamped ++ beNat 1 w.pointer ++ beNat 2 w.overrun) ∧
   (∀ records : List (List Byte), (∀ x ∈ records, x.length = 40) → tableRecords records.flatten = records))

/-- A CURVE entry is stored in the pending copy, at most as 8191, joins the written set, and reaches the in-use
copy too unless the part is INSPECTING. A HEADS entry of a head in MEASURE or FENCED is refused with IN_USE;
a strand above 3, an offset beyond ±1 000 000 or a rotation off scale is refused with BAD_VALUE; otherwise
the calibration is replaced whole and the written flag SET. The fields of a HEADS record are strand at byte
0, cosine at 1 and sine at 3 (two bytes, signed), the offsets at 5 and 8 (three bytes, signed) and the
minimum quality at 11. An entry of a die part is replaced whole by the fields of its record, and refused
with BAD_VALUE, changing nothing, when a code is outside its set; a minimum point count of 0 is stored as 1
and the entry counts as clamped; every other field is stored as written. Bytes of the record after its
fields are not looked at (log 24). -/
def Obligations.TableEntriesAreJudgedByTheirTable : Prop :=
  (∀ (n : Fin 4) (i : Fin 33) (record : List Byte) (s : State),
     let v := min 8191 (natAt record 0 2)
     writeEntry (.curve n) i.val record s =
       .stored (decide (8191 < natAt record 0 2))
         { s with tmu := { s.tmu with curves := upd s.tmu.curves n fun c =>
           { pending := c.pending.set i v
             inUse := if s.dlb.service = .inspecting then c.inUse else c.inUse.set i v
             written := c.written ||| (1#33 <<< i.val) } } }) ∧
  (∀ (h : Fin 16) (record : List Byte) (s : State),
     let f := headFields record
     let open' := (s.heads[h]).state = .off ∨ (s.heads[h]).state = .listen
     let d := f.cosine * f.cosine + f.sine * f.sine - 268435456
     let fits := -1000000 ≤ f.x0 ∧ f.x0 ≤ 1000000 ∧ -1000000 ≤ f.y0 ∧ f.y0 ≤ 1000000 ∧
       -1048576 ≤ d ∧ d ≤ 1048576
     (¬ open' → writeEntry .heads h.val record s = .refused .inUse) ∧
     (open' → 3 < f.strand ∨ ¬ fits → writeEntry .heads h.val record s = .refused .badValue) ∧
     (∀ t : Fin 4, open' → f.strand = t.val → fits →
       writeEntry .heads h.val record s = .stored false (s.modHead h fun x =>
         { x with
           cal := { strand := t, cosine := f.cosine, sine := f.sine, x0 := f.x0, y0 := f.y0,
                    minQuality := f.minQuality }
           written := true }))) ∧
  (∀ record : List Byte, headFields record =
     { strand := natAt record 0 1, cosine := intAt record 1 2, sine := intAt record 3 2, x0 := intAt record 5 3
       y0 := intAt record 8 3, minQuality := natAt record 11 1 }) ∧
  (∀ (k : Fin 8) (bs : List Byte) (s : State),
     let d := (s.dlb.slots[k]).record
     let put (clamped : Bool) (x : DieRecord) : EntryOutcome :=
       .stored clamped (s.modDie k fun y => { y with record := x })
     let num (offset width : Nat) : Nat := natAt bs offset width
     let int (offset : Nat) : Int := intAt bs offset 4
     let set (offset : Nat) : BitVec 16 := BitVec.ofNat 16 (num offset 2)
     let code (c : Consequence) : Nat := match c with
       | .scrap => 0
       | .hold => 1
       | .note => 2
     let pick (p : Pick) : Nat := match p with
       | .min => 0
       | .max => 1
       | .mean => 2
     (∀ (curve : Fin 4) (nodata : Consequence), num 21 1 = curve.val → num 28 1 = code nodata →
       writeEntry (.die k .header) 0 bs s = put false { d with entry :=
         { tag := BitVec.ofNat 32 (num 0 4)
           name := Vector.ofFn fun i => BitVec.ofNat 8 (num (4 + i.val) 1)
           strandCount := num 20 1, curve := curve, defaultTemp := num 22 2, blankLength := num 24 2
           scrapConfirm := num 26 1, holdConfirm := num 27 1, nodata := nodata, scrapLimit := num 29 1
           sampleCompare := set 30, sampleMask := set 32 } }) ∧
     (3 < num 21 1 ∨ 2 < num 28 1 → writeEntry (.die k .header) 0 bs s = .refused .badValue) ∧
     (∀ t : Fin 4, writeEntry (.die k .header) (t.val + 1) bs s = put false { d with
       strands := d.strands.set t { heads := set 0, windowCount := num 2 1, gaugeCount := num 3 1 } }) ∧
     (∀ c : Consequence, num 8 1 = code c →
       let w : MarkWindow := { startOff := int 0, endOff := int 4, consequence := c }
       writeEntry (.die k .marks) 0 bs s = put false { d with weld := w } ∧
       writeEntry (.die k .marks) 1 bs s = put false { d with stop := w } ∧
       writeEntry (.die k .marks) 2 bs s = put false { d with start := w }) ∧
     (2 < num 8 1 → ∀ i : Fin 3, writeEntry (.die k .marks) i.val bs s = .refused .badValue) ∧
     (∀ (t : Fin 4) (i : Fin 64),
       let count := num 18 1
       writeEntry (.die k (.windows t)) i.val bs s = put (decide (count = 0)) { d with
         windows := d.windows.set t ((d.windows[t]).set i
           { xLo := int 0, xHi := int 4, yLo := int 8, yHi := int 12, heads := set 16
             minCount := if count = 0 then 1 else count }) }) ∧
     (∀ (t : Fin 4) (i : Fin 32),
       (∀ (enabled thermal : Bool) (kind : GaugeKind) (axis : Axis) (pickA pickB : Pick) (severity : Consequence),
         num 0 1 = (if enabled then 1 else 0) → num 1 1 = (if kind = .span then 0 else 1) →
         num 2 1 = (if axis = .x then 0 else 1) → num 4 1 = pick pickA → num 6 1 = pick pickB →
         num 27 1 = code severity → num 28 1 = (if thermal then 1 else 0) →
         writeEntry (.die k (.gauges t)) i.val bs s = put false { d with
           gauges := d.gauges.set t ((d.gauges[t]).set i
             { enabled := enabled, kind := kind, axis := axis, windowA := num 3 1, pickA := pickA
               windowB := num 5 1, pickB := pickB, nominal := int 7, rejLo := int 11, warnLo := int 15
               warnHi := int 19, rejHi := int 23, severity := severity, thermal := thermal }) }) ∧
       (1 < num 0 1 ∨ 1 < num 1 1 ∨ 1 < num 2 1 ∨ 2 < num 4 1 ∨ 2 < num 6 1 ∨ 2 < num 27 1 ∨ 1 < num 28 1 →
         writeEntry (.die k (.gauges t)) i.val bs s = .refused .badValue)))

/-- TABLE_READ answers the entries from the first to the last or the read limit of the table, after the curve
state or slot status. READ_CELLS answers 1 to 16 ring slots of a strand and the die, station and saw cells.
READ_PIECES answers the next piece number, the open piece, the closing pieces, the number of log entries and
up to four of them from a given one. Each makes its checks in order, and changes nothing but the closing of
an open window. An entry is 40 bytes, padded with 0: a head’s calibration, zeros with its written flag
CLEAR, then its state, miss run, restore run and written flag; a curve point’s pending and in-use values and
written flag; a die part’s fields, zeros for an EMPTY slot. The curve state is complete just when all 33
points were written; the slot status is the state with the fault number, strand and entry. The read limits
are 16 heads, 33 points, 5 header, 3 mark, 32 window and 16 gauge entries. A ring slot answers EMPTY,
HELD_OTHER with the number held, or the cell with its fields; a piece its first cell, cut cell if any,
counts, reasons, zones and overflow; a log entry the strand, verdict, number, piece and sent flag. The
model’s choices: codes and widths no rule states, and one presence byte for verdict, reasons and lead gauge
of a cell together, the lead gauge having its own within (log 21); SET 0 and CLEAR 1 (log 20); the piece
verdict codes (log 22). -/
def Obligations.ReadRequestsAnswerWhatIsHeld : Prop :=
  (∀ (s : State) (r : Request) (rest : List Request), Ready s r rest → Asks r 8 6 →
     let u := begun s r rest
     let first := r.arg 4
     let last := r.arg 5
     (targetOf (r.arg 0) (r.arg 1) (r.arg 2) (r.arg 3) = none →
       exec .tableRead s = .next (answered r .badValue [] u)) ∧
     (∀ w : Target, targetOf (r.arg 0) (r.arg 1) (r.arg 2) (r.arg 3) = some w →
       (last < first ∨ w.entries ≤ last → exec .tableRead s = .next (answered r .range [] u)) ∧
       (first ≤ last → last < w.entries →
         let n := min w.readLimit (last - first + 1)
         exec .tableRead s = .next (answered r .ok
           (tableStatus w u ++ beNat 1 n ++
             ((List.range n).map fun i => readEntry w (first + i) u).flatten) u)))) ∧
  (∀ (s : State) (r : Request) (rest : List Request), Ready s r rest →
     let u := begun s r rest
     (Asks r 12 6 →
       (3 < r.arg 0 → exec .readCells s = .next (answered r .badValue [] u)) ∧
       (∀ t : Fin 4, r.arg 0 = t.val →
         (r.arg 5 = 0 ∨ 16 < r.arg 5 → exec .readCells s = .next (answered r .range [] u)) ∧
         (1 ≤ r.arg 5 → r.arg 5 ≤ 16 →
           (u.dlb.service = .unconfigured → exec .readCells s = .next (answered r .state [] u)) ∧
           (∀ g, u.lmp.geometry = some g → u.dlb.service ≠ .unconfigured →
             exec .readCells s = .next (answered r .ok
               (beNat 1 (r.arg 5) ++
                 ((List.range (r.arg 5)).map fun i =>
                   cellReading u.lmp.rings[t]
                     (BitVec.ofNat 32 (natAt r.args 1 4) + BitVec.ofNat 32 i)).flatten ++
                 wordBytes (seqOf (g.dieCell u.pos.station)) ++
                 wordBytes (seqOf (g.stationCell u.pos.station)) ++
                 wordBytes (seqOf (g.sawCell u.pos.station))) u))))) ∧
     (Asks r 13 2 →
       (3 < r.arg 0 → exec .readPieces s = .next (answered r .badValue [] u)) ∧
       (∀ t : Fin 4, r.arg 0 = t.val →
         (15 < r.arg 1 → exec .readPieces s = .next (answered r .range [] u)) ∧
         (r.arg 1 ≤ 15 → u.dlb.service = .unconfigured →
           exec .readPieces s = .next (answered r .state [] u)) ∧
         (r.arg 1 ≤ 15 → u.dlb.service ≠ .unconfigured →
           let p := u.pcu.strands[t]
           let log := u.pcu.log.filter (fun e => decide (e.completed.strand = t))
           exec .readPieces s = .next (answered r .ok
             (beNat 4 p.next.toNat ++
               Machine.optional (pieceBytes none) p.openPiece ++
               beNat 1 p.closing.length ++ (p.closing.map fun c => pieceBytes (some c.cut) c.piece).flatten ++
               beNat 1 log.length ++ beNat 1 ((log.drop (r.arg 1)).take 4).length ++
               (((log.drop (r.arg 1)).take 4).map entryBytesOf).flatten) u))))) ∧
  (∀ s : State,
     let padded (bs : List Byte) : List Byte := bs ++ List.replicate (40 - bs.length) 0
     let yes (b : Bool) : Byte := if b then 1 else 0
     let perhaps (x : Option Nat) : List Byte := x.elim [0] fun v => 1 :: beNat 1 v
     let severity (c : Consequence) : Byte := match c with | .scrap => 0 | .hold => 1 | .note => 2
     let pick (p : Pick) : Byte := match p with | .min => 0 | .max => 1 | .mean => 2
     (∀ h : Fin 16,
       let x := s.heads[h]
       let state : Byte := match x.state with | .off => 0 | .listen => 1 | .measure => 2 | .fenced => 3
       let runs : List Byte := [state] ++ beNat 1 x.missRun ++ beNat 1 x.restoreRun
       (x.written = false → readEntry .heads h.val s = padded (List.replicate 12 0 ++ runs ++ [1])) ∧
       (x.written = true → readEntry .heads h.val s = padded
         (beNat 1 x.cal.strand.val ++ beInt 2 x.cal.cosine ++ beInt 2 x.cal.sine ++ beInt 3 x.cal.x0 ++
           beInt 3 x.cal.y0 ++ beNat 1 x.cal.minQuality ++ runs ++ [0]))) ∧
     (∀ (n : Fin 4) (i : Fin 33),
       let x := s.tmu.curves[n]
       readEntry (.curve n) i.val s =
         padded (beNat 2 x.pending[i] ++ beNat 2 x.inUse[i] ++ [yes (x.written.getLsbD i.val)])) ∧
     (∀ (k : Fin 8) (part : DiePart) (i : Nat), (s.dlb.slots[k]).state = .empty →
       readEntry (.die k part) i s = List.replicate 40 0) ∧
     (∀ k : Fin 8, (s.dlb.slots[k]).state ≠ .empty →
       let d := (s.dlb.slots[k]).record
       let e := d.entry
       readEntry (.die k .header) 0 s = padded
         (beNat 4 e.tag.toNat ++ e.name.toList ++ beNat 1 e.strandCount ++ beNat 1 e.curve.val ++
           beNat 2 e.defaultTemp ++ beNat 2 e.blankLength ++ beNat 1 e.scrapConfirm ++ beNat 1 e.holdConfirm ++
           [severity e.nodata] ++ beNat 1 e.scrapLimit ++ beNat 2 e.sampleCompare.toNat ++
           beNat 2 e.sampleMask.toNat) ∧
       (∀ t : Fin 4, readEntry (.die k .header) (t.val + 1) s = padded
         (beNat 2 (d.strands[t]).heads.toNat ++ beNat 1 (d.strands[t]).windowCount ++
           beNat 1 (d.strands[t]).gaugeCount)) ∧
       (∀ i < 3,
         let w : MarkWindow := match i with | 0 => d.weld | 1 => d.stop | _ => d.start
         readEntry (.die k .marks) i s =
           padded (beInt 4 w.startOff ++ beInt 4 w.endOff ++ [severity w.consequence])) ∧
       (∀ (t : Fin 4) (i : Fin 64),
         let w := (d.windows[t])[i]
         readEntry (.die k (.windows t)) i.val s = padded
           (beInt 4 w.xLo ++ beInt 4 w.xHi ++ beInt 4 w.yLo ++ beInt 4 w.yHi ++ beNat 2 w.heads.toNat ++
             beNat 1 w.minCount)) ∧
       (∀ (t : Fin 4) (i : Fin 32),
         let g := (d.gauges[t])[i]
         readEntry (.die k (.gauges t)) i.val s = padded
           ([yes g.enabled, if g.kind = .span then 0 else 1, if g.axis = .x then 0 else 1] ++ beNat 1 g.windowA ++
             [pick g.pickA] ++ beNat 1 g.windowB ++ [pick g.pickB] ++ beInt 4 g.nominal ++ beInt 4 g.rejLo ++
             beInt 4 g.warnLo ++ beInt 4 g.warnHi ++ beInt 4 g.rejHi ++ [severity g.severity, yes g.thermal]))) ∧
     tableStatus .heads s = [] ∧
     (∀ n : Fin 4,
       ((∀ i < 33, (s.tmu.curves[n]).written.getLsbD i = true) → tableStatus (.curve n) s = [1]) ∧
       ((∃ i < 33, (s.tmu.curves[n]).written.getLsbD i = false) → tableStatus (.curve n) s = [0])) ∧
     (∀ (k : Fin 8) (part : DiePart),
       let x := s.dlb.slots[k]
       let state : Byte := match x.state with
         | .empty => 0 | .loading => 1 | .ready => 2 | .faulty => 3 | .staged => 4 | .inService => 5
       tableStatus (.die k part) s =
         [state] ++ perhaps x.faultNumber ++ perhaps x.faultStrand ++ perhaps x.faultEntry) ∧
     (Target.heads.readLimit = 16 ∧ ∀ (n : Fin 4) (k : Fin 8) (t : Fin 4),
       (Target.curve n).readLimit = 33 ∧ (Target.die k .header).readLimit = 5 ∧
       (Target.die k .marks).readLimit = 3 ∧ (Target.die k (.windows t)).readLimit = 32 ∧
       (Target.die k (.gauges t)).readLimit = 16)) ∧
  (let perhaps (x : Option Nat) : List Byte := x.elim [0] fun v => 1 :: beNat 1 v
   (∀ (r : Machine.Ring) (n : Word32),
     (r.at (n.toNat % 4096) = none → cellReading r n = [2]) ∧
     (∀ c : Cell, r.at (n.toNat % 4096) = some c →
       (c.number ≠ n → cellReading r n = [1] ++ beNat 4 c.number.toNat) ∧
       (c.number = n →
         let state : Byte := match c.state with | .unseen => 0 | .approach => 1 | .live => 2 | .closed => 3
         let mark (m : Option Consequence) : Byte := match m with
           | none => 0 | some .scrap => 1 | some .hold => 2 | some .note => 3
         let verdict (v : CellVerdict) : Byte := match v with | .good => 0 | .warn => 1 | .hold => 2 | .scrap => 3
         cellReading r n = [0, state, if c.unseen then 0 else 1] ++ beNat 4 c.dieTag.toNat ++
           [mark c.marks.weld, mark c.marks.stop, mark c.marks.start, mark c.marks.proof] ++
           beNat 2 c.evaluated ++ beNat 2 c.withData ++ beNat 2 c.blanked ++ beNat 2 c.partials ++
           beNat 2 c.warns ++ c.tallies.toList.map (BitVec.ofNat 8) ++
           (match c.result with
             | none => [0]
             | some x => [1, verdict x.verdict] ++ beNat 2 x.reasons.toNat ++ perhaps x.lead)))) ∧
   (let zone (z : Zone) : List Byte := beNat 4 z.offset ++ beNat 4 z.length ++
      [if z.cls = .hold then 0 else 1] ++ beNat 2 z.reasons.toNat ++ perhaps z.lead
    let content (p : Piece) : List Byte := beNat 4 p.cells ++ beNat 4 p.good ++ beNat 4 p.warn ++ beNat 4 p.hold ++
      beNat 4 p.scrap ++ beNat 2 p.reasons.toNat ++ beNat 1 p.zones.length ++ (p.zones.map zone).flatten ++
      [if p.overflow then 0 else 1]
    (∀ p : Piece, pieceBytes none p = beNat 4 p.first.toNat ++ [0] ++ content p) ∧
    (∀ (p : Piece) (cut : Word32),
      pieceBytes (some cut) p = beNat 4 p.first.toNat ++ [1] ++ beNat 4 cut.toNat ++ content p) ∧
    (∀ e : LogEntry,
      let c := e.completed
      let verdict : Byte := match c.verdict with
        | .accept => 0 | .trim => 1 | .hold => 2 | .scrap => 3 | .aborted => 4
      entryBytesOf e = beNat 1 c.strand.val ++ [verdict] ++ beNat 4 c.number.toNat ++
        beNat 4 c.piece.first.toNat ++ content c.piece ++ [if e.sent then 0 else 1])))

/-! ## Counters -/

/-- While the freeze flag is RUNNING a counting adds 1 to its one counter, or the number of points passed over
to TRIGGER_OVERRUN, modulo 2^32, and changes nothing else; while it is FROZEN a counting changes nothing.
The 11 port, 7 head, 14 strand and 18 global counters stand in the places that the tables of 12.1 give them;
a cell verdict, a piece verdict and an event each have the counter of their name. -/
def Obligations.CountersCountUnlessFrozen : Prop :=
  (∀ s : State,
     (s.ctb.frozen = true →
       (∀ i c, countPort i c s = s) ∧ (∀ h c, countHead h c s = s) ∧ (∀ t c, countStrand t c s = s) ∧
       (∀ c n, countGlobalBy c n s = s)) ∧
     (s.ctb.frozen = false →
       (∀ (i : Fin 9) (c : PortCounter), countPort i c s =
         { s with ctb := { s.ctb with ports := upd s.ctb.ports i fun v => upd v c.pos (· + 1) } }) ∧
       (∀ (h : Fin 16) (c : HeadCounter), countHead h c s =
         { s with ctb := { s.ctb with heads := upd s.ctb.heads h fun v => upd v c.pos (· + 1) } }) ∧
       (∀ (t : Fin 4) (c : StrandCounter), countStrand t c s =
         { s with ctb := { s.ctb with strands := upd s.ctb.strands t fun v => upd v c.pos (· + 1) } }) ∧
       (∀ (c : GlobalCounter) (n : Nat), countGlobalBy c n s =
         { s with ctb := { s.ctb with global := upd s.ctb.global c.pos (· + BitVec.ofNat 32 n) } }))) ∧
  ([PortCounter.received, .admitted, .admitMismatch, .headOff, .noBuffer, .holdSent, .resumeSent, .forwarded, .evicted,
     .nonScanDropped, .tempInvalid].map PortCounter.pos = List.finRange 11 ∧
   [HeadCounter.accepted, .late, .stray, .duplicate, .corrupt, .misses, .fencings].map HeadCounter.pos =
     List.finRange 7 ∧
   [StrandCounter.evaluated, .blanked, .beyondSaw, .cellsGood, .cellsWarn, .cellsHold, .cellsScrap, .piecesAccept,
     .piecesTrim, .piecesHold, .piecesScrap, .piecesAborted, .markTruncated, .pieceLost].map StrandCounter.pos =
     List.finRange 14 ∧
   [GlobalCounter.triggers, .triggerOverrun, .skipped, .earlyClose, .evWeld, .evStop, .evStart, .evPressRunFalling,
     .evHandover, .evSaw, .markMerged, .sawOverrun, .mgmtDropped, .alarmDropped, .eventRecordsDropped,
     .sectionRecordsDropped, .filtered0, .filtered1].map GlobalCounter.pos = List.finRange 18 ∧
   [CellVerdict.good, .warn, .hold, .scrap].map CellVerdict.counter =
     [.cellsGood, .cellsWarn, .cellsHold, .cellsScrap] ∧
   [PieceVerdict.accept, .trim, .hold, .scrap, .aborted].map PieceVerdict.counter =
     [.piecesAccept, .piecesTrim, .piecesHold, .piecesScrap, .piecesAborted] ∧
   [EventKind.weld, .stop, .start, .pressRunFalling, .handover, .saw].map EventKind.counter =
     [.evWeld, .evStop, .evStart, .evPressRunFalling, .evHandover, .evSaw])

/-- A COUNTERS request with an operation code above 5, or with a scope above 3 where the scope is read, is
refused with BAD_VALUE; an index beyond the scope is refused with RANGE; a clearing operation while FROZEN
is refused with STATE. READ answers the freeze flag and every counter of the instance; READ_CLEAR the same
and then clears the instance; CLEAR_SCOPE and CLEAR_ALL clear their counters and answer the freeze flag;
FREEZE and UNFREEZE set it and answer it. The head filters, and the freeze flag of a clearing, stay. The
flag’s codes are the model’s choice (log 20), and so is that an operation code above 5 is answered by READ
(log 6). An index reaches 8 for the ports, 15 for the heads, 3 for the strands and 0 for the global scope;
an instance’s values are its 11, 7, 14 or 18 counters in their order, and clearing it sets these alone to 0. -/
def Obligations.CounterRequestsReadClearAndFreeze : Prop :=
  (∀ (s : State) (r : Request) (rest : List Request) (op : Nat), Ready s r rest → Asks r 14 3 → r.arg 0 = op →
     let u := begun s r rest
     let scope := r.arg 1
     let index := r.arg 2
     let shown (i : CounterInstance) : List Byte :=
       (if u.ctb.frozen then 0 else 1) :: ((i.values u.ctb).map fun v => beNat 4 v.toNat).flatten
     (op = 0 →
       (3 < scope → exec .read s = .next (answered r .badValue [] u)) ∧
       (scope ≤ 3 → instanceOf scope index = none → exec .read s = .next (answered r .range [] u)) ∧
       (∀ i, scope ≤ 3 → instanceOf scope index = some i →
         exec .read s = .next (answered r .ok (shown i) u))) ∧
     (5 < op → exec .read s = .next (answered r .badValue [] u)) ∧
     (op = 1 →
       (3 < scope → exec .readClear s = .next (answered r .badValue [] u)) ∧
       (scope ≤ 3 → instanceOf scope index = none → exec .readClear s = .next (answered r .range [] u)) ∧
       (∀ i, scope ≤ 3 → instanceOf scope index = some i →
         (u.ctb.frozen = true → exec .readClear s = .next (answered r .state [] u)) ∧
         (u.ctb.frozen = false →
           exec .readClear s =
             .next (answered r .ok (shown i) { u with ctb := u.ctb.clearInstance i }))))) ∧
  (∀ (s : State) (r : Request) (rest : List Request), Ready s r rest → Asks r 14 3 →
     let u := begun s r rest
     let zeros (n : Nat) : Vector Word32 n := Vector.replicate n 0
     (r.arg 0 = 2 →
       (3 < r.arg 1 → exec .clearScope s = .next (answered r .badValue [] u)) ∧
       (r.arg 1 ≤ 3 → u.ctb.frozen = true → exec .clearScope s = .next (answered r .state [] u)) ∧
       (u.ctb.frozen = false →
         (r.arg 1 = 0 → exec .clearScope s = .next (answered r .ok [1]
           { u with ctb := { u.ctb with ports := Vector.replicate 9 (zeros 11) } })) ∧
         (r.arg 1 = 1 → exec .clearScope s = .next (answered r .ok [1]
           { u with ctb := { u.ctb with heads := Vector.replicate 16 (zeros 7) } })) ∧
         (r.arg 1 = 2 → exec .clearScope s = .next (answered r .ok [1]
           { u with ctb := { u.ctb with strands := Vector.replicate 4 (zeros 14) } })) ∧
         (r.arg 1 = 3 → exec .clearScope s = .next (answered r .ok [1]
           { u with ctb := { u.ctb with global := zeros 18 } })))) ∧
     (r.arg 0 = 3 →
       (u.ctb.frozen = true → exec .clearAll s = .next (answered r .state [] u)) ∧
       (u.ctb.frozen = false → exec .clearAll s = .next (answered r .ok [1]
         { u with ctb := { u.ctb with
           ports := Vector.replicate 9 (zeros 11), heads := Vector.replicate 16 (zeros 7)
           strands := Vector.replicate 4 (zeros 14), global := zeros 18 } }))) ∧
     (r.arg 0 = 4 →
       exec .freeze s = .next (answered r .ok [0] { u with ctb := { u.ctb with frozen := true } })) ∧
     (r.arg 0 = 5 →
       exec .unfreeze s = .next (answered r .ok [1] { u with ctb := { u.ctb with frozen := false } }))) ∧
  ((∀ index : Nat,
     (∀ i : Fin 9, index = i.val → instanceOf 0 index = some (.port i)) ∧ (8 < index → instanceOf 0 index = none) ∧
     (∀ h : Fin 16, index = h.val → instanceOf 1 index = some (.head h)) ∧
       (15 < index → instanceOf 1 index = none) ∧
     (∀ t : Fin 4, index = t.val → instanceOf 2 index = some (.strand t)) ∧
       (3 < index → instanceOf 2 index = none) ∧
     (index = 0 → instanceOf 3 index = some .global) ∧ (0 < index → instanceOf 3 index = none)) ∧
   (∀ c : Counters,
     (∀ i : Fin 9, CounterInstance.values c (.port i) = (c.ports[i]).toList ∧
       c.clearInstance (.port i) = { c with ports := c.ports.set i (Vector.replicate 11 0) }) ∧
     (∀ h : Fin 16, CounterInstance.values c (.head h) = (c.heads[h]).toList ∧
       c.clearInstance (.head h) = { c with heads := c.heads.set h (Vector.replicate 7 0) }) ∧
     (∀ t : Fin 4, CounterInstance.values c (.strand t) = (c.strands[t]).toList ∧
       c.clearInstance (.strand t) = { c with strands := c.strands.set t (Vector.replicate 14 0) }) ∧
     CounterInstance.values c .global = c.global.toList ∧
       c.clearInstance .global = { c with global := Vector.replicate 18 0 }))

/-! ## Configuration -/

/-- A ready SET_CONFIG request of 1 to 8 entries is answered by its row with one result for each entry, the
entries judged in order against the values stored before, and the status of the first one refused.
GET_CONFIG answers each of 1 to 8 pairs with its value, or BAD_VALUE and 0. An entry of 11 bytes is item,
index and value; its result repeats item and index and gives its status and what the item then returns, with
0 for none, and Tp for item 22 at index 0 (at no other index, the model’s choice, log 43); a read-only item
gives its reading (log 23). Every setting 1 to 39 reads as its stored value or code in eight bytes; an
unknown item or an index out of range reads none. Item 64 gives M, S and the latch; 65 G, sequence number,
state and deferral; 66 use count, hold state, pending notice, learned address and free shared blocks; 67
status, temperature and age in ms, at most 65535 (an age of no whole ms is the ms below or the next, log
12); 68 the service state, the slots in service and staged, state and fault number of each slot and the open
window; 69 the geometry, A, V, H, M0, m, three cells and the slot counts of each ring, or zeros; 70 the
flags; 71 mode and bound address. Field widths, the notice’s code, the one byte for an open window and the
layout of a GET_CONFIG result are the model’s (log 21), and so is the latch’s code (log 20). That the row is
that of the first entry’s item is the model’s choice (log 6). -/
def Obligations.ConfigRequestsAreAnsweredEntryByEntry : Prop :=
  (∀ (s : State) (r : Request) (rest : List Request), Ready s r rest → r.command = 2 →
     sizeSound 2 r.args.length = true →
     let u := begun s r rest
     let done := (configEntries r.args).foldl (setEntry r.source) { statuses := [], results := [], state := u }
     exec (rowOf r) s =
       .next (answered r (firstRefusal done.statuses)
         (beNat 1 done.results.length ++ done.results.flatten) done.state)) ∧
  (∀ (s : State) (r : Request) (rest : List Request) (pairs : List (Nat × Nat)), Ready s r rest → r.command = 3 →
     1 ≤ pairs.length → pairs.length ≤ 8 → (∀ p ∈ pairs, p.1 < 65536 ∧ p.2 < 256) →
     r.args = (pairs.map fun p => beNat 2 p.1 ++ beNat 1 p.2).flatten →
     let u := begun s r rest
     exec .getConfig s = .next (answered r
       (if pairs.all (fun p => (itemReading p.1 p.2 u).isSome) then .ok else .badValue)
       (beNat 1 pairs.length ++ (pairs.map fun p =>
         beNat 2 p.1 ++ beNat 1 p.2 ++
           (match itemReading p.1 p.2 u with
            | some v => 0 :: v
            | none => 3 :: beNat 8 0)).flatten) u)) ∧
  (∀ s : State,
     itemReading 64 0 s =
       some (beNat 6 s.pos.station ++ beInt 5 s.pos.acc ++ [if s.pos.latch then 0 else 1]) ∧
     itemReading 65 0 s =
       some (beNat 6 s.trg.grid ++ beNat 2 s.trg.seq.toNat ++
         [if s.dlb.service = .inspecting ∧ s.trg.mode ≠ .off then 1 else 0,
          if s.trg.deferred then 1 else 0]) ∧
     itemReading 70 0 s = some (beNat 2 s.mga.alarms.toNat ++ List.replicate 6 0) ∧
     (∀ t : Fin 4, s.tmu.strands[t] = .none → itemReading 67 t.val s = some (List.replicate 8 0)) ∧
     (∀ (t : Fin 4) (temp taken e : Nat), s.tmu.strands[t] = .fresh temp taken e →
       (s.now - taken) % 1000 = 0 →
       itemReading 67 t.val s =
         some (1 :: (beNat 2 temp ++ beNat 2 (min 65535 ((s.now - taken) / 1000)) ++ List.replicate 3 0)))) ∧
  ((∀ entries : List ConfigEntry, (∀ e ∈ entries, e.item < 65536 ∧ e.index < 256 ∧ e.value.length = 8) →
     configEntries (entries.map fun e => beNat 2 e.item ++ beNat 1 e.index ++ e.value).flatten = entries) ∧
   (∀ (source : Address) (acc : Results) (e : ConfigEntry),
     let w := writeItem source e acc.state
     let next := setEntry source acc e
     next.statuses = acc.statuses ++ [w.1] ∧ next.state = w.2 ∧
     next.results = acc.results ++ [beNat 2 e.item ++ beNat 1 e.index ++ [w.1.code] ++
       ((itemReading e.item e.index w.2).getD (List.replicate 8 0)) ++
       if e.item = 22 ∧ e.index = 0 then beNat 3 w.2.trg.period else []]) ∧
   (firstRefusal [] = .ok ∧ ∀ (st : Status) (rest : List Status),
     firstRefusal (st :: rest) = if st = .ok then firstRefusal rest else st)) ∧
  (∀ s : State,
     let reads (item index value : Nat) : Prop := itemReading item index s = some (beNat 8 value)
     (∀ k v : Nat, beNat k v = (List.range k).map fun i => BitVec.ofNat 8 (v / 256 ^ (k - 1 - i))) ∧
     (∀ (k : Nat) (v : Int), beInt k v = beNat k (v % (256 ^ k : Nat)).toNat) ∧
     (∀ p : Fin 8,
       let x := s.ports[p]
       reads 1 p.val (match x.role with | .head => 0 | .pyro => 1 | .off => 2) ∧
       reads 2 p.val (match x.admission with | .any => 0 | .matchId => 1 | .stamp => 2) ∧
       reads 3 p.val x.defaultHead.val ∧
       reads 4 p.val (match x.nonScan with | .drop => 0 | .uplink => 1) ∧
       reads 5 p.val (match x.forwardMode with | .off => 0 | .all => 1 | .decimated => 2) ∧
       reads 6 p.val x.decimation ∧ reads 7 p.val x.reserve ∧ reads 8 p.val x.high ∧ reads 9 p.val x.low ∧
       reads 10 p.val (s.trg.outputs[p]).phaseDelay) ∧
     (reads 11 0 (match s.mirror with | none => 8 | some p => p.val) ∧ reads 12 0 s.pool.evictionLevel ∧
       reads 13 0 s.upl.station.toNat ∧ reads 14 0 s.upl.recorder.toNat ∧ reads 15 0 s.upl.report.toNat ∧
       reads 16 0 s.upl.frameType.toNat ∧
       reads 17 0 (match s.pos.sense with | .normal => 0 | .inverted => 1) ∧ reads 18 0 s.pos.scale ∧
       reads 19 0 s.pos.reverseLimit ∧
       reads 20 0 (match s.trg.mode with | .off => 0 | .pitch => 1 | .time => 2) ∧ reads 21 0 s.trg.pitch ∧
       reads 22 0 s.trg.tmin ∧ reads 23 0 s.trg.period ∧ reads 24 0 s.sau.timeout ∧ reads 25 0 s.sau.fenceLimit ∧
       reads 26 0 s.sau.restoreCount ∧ reads 27 0 s.tmu.holdTime ∧ reads 29 0 s.emu.stillTime ∧
       reads 30 0 (if s.emu.proofEnable then 1 else 0) ∧ reads 31 0 s.emu.proofCompare.toNat ∧
       reads 32 0 s.emu.proofMask.toNat ∧ reads 33 0 s.emu.proofStrands.toNat ∧ reads 34 0 s.pcu.holdTime ∧
       reads 35 0 (match s.egs.mode with | .strict => 0 | .quota => 1) ∧
       reads 37 0 (match s.mga.mode with | .openMode => 0 | .first => 1 | .fixed => 2) ∧
       reads 38 0 s.mga.fixed.toNat) ∧
     (∀ l : Fin 4, reads 28 l.val (s.emu.lines[l]).time ∧ reads 36 l.val s.egs.quotas[l]) ∧
     (∀ f : Fin 2, reads 39 f.val
       ((if (s.ctb.filters[f]).enabled then 256 else 0) + (s.ctb.filters[f]).head.val)) ∧
     (∀ item index : Nat,
       let instances := if 1 ≤ item ∧ item ≤ 10 ∨ item = 66 then 8 else if item = 28 ∨ item = 36 ∨ item = 67 then 4
         else if item = 39 then 2 else 1
       item = 0 ∨ (39 < item ∧ item < 64) ∨ 71 < item ∨ instances ≤ index → itemReading item index s = none)) ∧
  (∀ s : State,
     let perhaps (x : Option Nat) : List Byte := x.elim [0] fun v => 1 :: beNat 1 v
     let address (x : Option Address) : List Byte := x.elim [0] fun a => 1 :: beNat 6 a.toNat
     (∀ p : Fin 8,
       let x := s.ports[p]
       itemReading 66 p.val s = some (beNat 2 (useCount s.pool.held p) ++
         [if x.hold = .flowing then 0 else 1] ++
         (match x.notice with | none => [0] | some .hold => [1, 0] | some .resume => [1, 1]) ++
         address x.learned ++ beNat 2 (freeShared s))) ∧
     (∀ (t : Fin 4) (temp taken : Nat) (code : Byte),
       (∃ e : Nat, s.tmu.strands[t] = .fresh temp taken e ∧ code = 1) ∨
         (s.tmu.strands[t] = .stale temp taken ∧ code = 2) →
       ∃ up : Nat, up ≤ 1 ∧ ((s.now - taken) % 1000 = 0 → up = 0) ∧
         itemReading 67 t.val s = some (code :: (beNat 2 temp ++
           beNat 2 (min 65535 ((s.now - taken) / 1000 + up)) ++ List.replicate 3 0))) ∧
     (let state (x : DieState) : Byte := match x with
        | .empty => 0 | .loading => 1 | .ready => 2 | .faulty => 3 | .staged => 4 | .inService => 5
      let numberOf (x : DieState) : Option Nat :=
        ((List.finRange 8).find? fun k => decide ((s.dlb.slots[k]).state = x)).map Fin.val
      let part (d : DiePart) : List Byte := match d with
        | .header => [1, 0]
        | .marks => [2, 0]
        | .windows t => [3, BitVec.ofNat 8 t.val]
        | .gauges t => [4, BitVec.ofNat 8 t.val]
      let target (x : Target) : List Byte := match x with
        | .heads => [1, 0, 0, 0]
        | .curve n => [2, BitVec.ofNat 8 n.val, 0, 0]
        | .die k d => [3, BitVec.ofNat 8 k.val] ++ part d
      let service : Byte := match s.dlb.service with
        | .unconfigured => 0 | .idle => 1 | .inspecting => 2
      let w := s.mga.window
      itemReading 68 0 s = some
        (service :: (perhaps (numberOf .inService) ++ perhaps (numberOf .staged) ++
          ((List.finRange 8).map fun k =>
            state (s.dlb.slots[k]).state :: perhaps (s.dlb.slots[k]).faultNumber).flatten ++
          (match w.target with
           | none => [0]
           | some x => 1 :: (target x ++ beNat 1 w.pointer ++ beNat 1 w.last ++ beNat 2 w.overrun))))) ∧
     (s.lmp.geometry = none → itemReading 69 0 s = some (List.replicate 81 0)) ∧
     (∀ g : Geometry, s.lmp.geometry = some g →
       let a : Nat := max 1 ((g.dieToStation + g.cellLength - 1) / g.cellLength)
       let v : Nat := max 2 ((g.stationToSaw + g.cellLength - 1) / g.cellLength + 1)
       let m : Int := s.pos.station - g.origin
       let cell (place : Int) : List Byte := beNat 4 (BitVec.ofInt 32 (place / g.cellLength)).toNat
       itemReading 69 0 s = some
         ([1] ++ beNat 2 g.cellLength ++ beNat 3 g.dieToStation ++ beNat 3 g.stationToSaw ++ beNat 2 a ++ beNat 2 v ++
           beInt 2 (4096 - a - v) ++ beInt 7 g.origin ++ beInt 7 m ++ cell (m + g.dieToStation) ++ cell m ++
           cell (m - g.stationToSaw) ++
           ((List.finRange 4).map fun t =>
             let holding (st : CellState) : List Byte :=
               beNat 2 ((s.lmp.rings[t]).countP fun e => decide (e.2.state = st))
             holding .unseen ++ holding .approach ++ holding .live ++ holding .closed ++
               beNat 2 (4096 - (s.lmp.rings[t]).length)).flatten)) ∧
     itemReading 71 0 s = some
       (let mode : Byte := match s.mga.mode with
          | .openMode => 0 | .first => 1 | .fixed => 2
        let bs := mode :: address s.mga.bound
        bs ++ List.replicate (8 - bs.length) 0))

/-- Items 1 to 6 and 10 of a port and item 11, each written alone: the result gives the stored value. Forward
mode and decimation factor set the counter to 0, the factor within 1 to 16; the phase delay is at most 255.
A role of OFF makes the port FLOWING and withdraws its notice; a role taken from OFF raises RESUME and makes
the flow-control check; OFF and PYRO empty the pulse schedule and release the output. -/
def Obligations.PortSettingWritesTakeEffect : Prop :=
  (∀ (s : State) (r : Request) (rest : List Request) (item index : Nat) (value : List Byte),
     Ready s r rest → Writes r item index value →
     let u := begun s r rest
     let v := readInt value
     (∀ p : Fin 8, index = p.val →
       (∀ m : Role, item = 1 → v = positionIn roleList m →
         exec .writePortRole s = .next (written r 1 index .ok (beNat 8 v.toNat) (writeRole p m u))) ∧
       (∀ m : AdmissionMode, item = 2 → v = positionIn admissionList m →
         exec .writeConfigItem s = .next (written r 2 index .ok (beNat 8 v.toNat)
           (u.modPort p fun x => { x with admission := m }))) ∧
       (∀ h : Fin 16, item = 3 → v = h.val →
         exec .writeConfigItem s = .next (written r 3 index .ok (beNat 8 v.toNat)
           (u.modPort p fun x => { x with defaultHead := h }))) ∧
       (∀ m : Disposition, item = 4 → v = positionIn dispositionList m →
         exec .writeConfigItem s = .next (written r 4 index .ok (beNat 8 v.toNat)
           (u.modPort p fun x => { x with nonScan := m }))) ∧
       (∀ m : ForwardMode, item = 5 → v = positionIn forwardList m →
         exec .writeForwardMode s = .next (written r 5 index .ok (beNat 8 v.toNat)
           (u.modPort p fun x => { x with forwardMode := m, counter := 0 }))) ∧
       (item = 6 →
         exec .writeDecimationFactor s = .next (written r 6 index .ok (beNat 8 (clamp 1 16 v))
           (u.modPort p fun x => { x with decimation := clamp 1 16 v, counter := 0 }))) ∧
       (item = 10 →
         exec .writeConfigItem s = .next (written r 10 index .ok (beNat 8 (clamp 0 255 v))
           (u.modOutput p fun o => { o with phaseDelay := clamp 0 255 v })))) ∧
     (item = 11 → index = 0 → 0 ≤ v → v ≤ 8 →
       exec .writeMirrorSource s = .next (written r 11 0 .ok (beNat 8 v.toNat)
         { u with mirror := toFin 8 v.toNat }))) ∧
  (∀ (p : Fin 8) (s : State),
     let x := s.ports[p]
     let quiet (u : State) : State := u.modOutput p fun o => { o with schedule := [], release := none }
     (x.role ≠ .off →
       writeRole p .off s =
         quiet (s.modPort p fun y => { y with role := .off, hold := .flowing, notice := none }) ∧
       writeRole p .head s = s.modPort p (fun y => { y with role := .head }) ∧
       writeRole p .pyro s = quiet (s.modPort p fun y => { y with role := .pyro })) ∧
     (x.role = .off → ∀ m : Role, m ≠ .off →
       let u := flowControlCheck p (s.modPort p fun y =>
         { y with role := m, notice := if y.notice = none ∨ y.notice = some .resume then some .resume else none })
       writeRole p m s = if m = .head then u else quiet u))

/-- A reserve is stored up to 255 and followed by the eviction check, but refused with BAD_VALUE when the
reserves would pass 1536 blocks and with IN_USE when the shared use would pass the new shared capacity. A
high water mark is stored above the low one and up to 4095, a low one below the high one and up to 4094,
each followed by the flow-control check. An eviction level is stored up to 1024, with no check of its own
(the model’s reading, log 14). The result gives the value then held. -/
def Obligations.PoolSettingWritesAreChecked : Prop :=
  ∀ (s : State) (r : Request) (rest : List Request) (item : Nat) (p : Fin 8) (value : List Byte),
    Ready s r rest → Writes r item p.val value →
    let u := begun s r rest
    let v := readInt value
    let reserve := clamp 0 255 v
    let t := u.modPort p fun x => { x with reserve := reserve }
    let high := clamp (max 1 ((u.ports[p]).low + 1)) 4095 v
    let low := clamp 0 (min 4094 ((u.ports[p]).high - 1)) v
    (item = 7 → 1536 < reserveSum t →
      exec .writeReserve s =
        .next (written r 7 p.val .badValue (beNat 8 (u.ports[p]).reserve) u)) ∧
    (item = 7 → reserveSum t ≤ 1536 → 4096 - reserveSum t < sharedUse t →
      exec .writeReserve s =
        .next (written r 7 p.val .inUse (beNat 8 (u.ports[p]).reserve) u)) ∧
    (item = 7 → reserveSum t ≤ 1536 → sharedUse t ≤ 4096 - reserveSum t →
      exec .writeReserve s = .next (written r 7 p.val .ok (beNat 8 reserve) (evictionCheck t))) ∧
    (item = 8 →
      exec .writeWaterMark s = .next (written r 8 p.val .ok (beNat 8 high)
        (flowControlCheck p (u.modPort p fun x => { x with high := high })))) ∧
    (item = 9 →
      exec .writeWaterMark s = .next (written r 9 p.val .ok (beNat 8 low)
        (flowControlCheck p (u.modPort p fun x => { x with low := low })))) ∧
    (item = 12 → p = 0 →
      exec .writeConfigItem s = .next (written r 12 0 .ok (beNat 8 (clamp 0 1024 v))
        { u with pool := { u.pool with evictionLevel := clamp 0 1024 v } }))

/-- A station address is refused when it is a group address or the recorder address, a recorder address when it
is the station address, a frame type value outside 0600h to FFFFh, a fixed address that is 0 or a group
address, each with BAD_VALUE and the held value; otherwise they are stored, and the report address whatever
it is. A scheduling mode sets the turn to A and its count to 0. A binding mode binds afresh: none under
OPEN, the request’s source under FIRST, the fixed address under FIXED, which is refused while that is 0; a
fixed address moves the binding at once under FIXED. -/
def Obligations.UplinkAndAgentSettingWritesAreChecked : Prop :=
  (∀ (s : State) (r : Request) (rest : List Request) (item : Nat) (value : List Byte),
     Ready s r rest → Writes r item 0 value →
     let u := begun s r rest
     let a : Address := BitVec.ofNat 48 (natAt value 2 6)
     let isAddress := natAt value 0 2 = 0
     let held (x : Address) : List Byte := beNat 8 x.toNat
     (item = 13 → ¬ isAddress ∨ a.getLsbD 40 = true ∨ a = u.upl.recorder →
       exec .writeStationAddress s = .next (written r 13 0 .badValue (held u.upl.station) u)) ∧
     (item = 13 → isAddress → a.getLsbD 40 = false → a ≠ u.upl.recorder →
       exec .writeStationAddress s = .next (written r 13 0 .ok (held a)
         { u with upl := { u.upl with station := a } })) ∧
     (item = 14 → ¬ isAddress ∨ a = u.upl.station →
       exec .writeRecorderAddress s = .next (written r 14 0 .badValue (held u.upl.recorder) u)) ∧
     (item = 14 → isAddress → a ≠ u.upl.station →
       exec .writeRecorderAddress s = .next (written r 14 0 .ok (held a)
         { u with upl := { u.upl with recorder := a } })) ∧
     (item = 16 → readInt value < 0x600 ∨ 0xFFFF < readInt value →
       exec .writeFrameTypeValue s =
         .next (written r 16 0 .badValue (beNat 8 u.upl.frameType.toNat) u)) ∧
     (item = 16 → 0x600 ≤ readInt value → readInt value ≤ 0xFFFF →
       exec .writeFrameTypeValue s = .next (written r 16 0 .ok (beNat 8 (readInt value).toNat)
         { u with upl := { u.upl with frameType := BitVec.ofNat 16 (readInt value).toNat } }))) ∧
  (∀ (s : State) (r : Request) (rest : List Request) (value : List Byte),
     Ready s r rest → Writes r 15 0 value → natAt value 0 2 = 0 →
     let u := begun s r rest
     exec .writeConfigItem s = .next (written r 15 0 .ok (beNat 8 (natAt value 2 6))
       { u with upl := { u.upl with report := BitVec.ofNat 48 (natAt value 2 6) } })) ∧
  (∀ (s : State) (r : Request) (rest : List Request) (item : Nat) (value : List Byte),
     Ready s r rest → Writes r item 0 value →
     let u := begun s r rest
     let v := readInt value
     let a : Address := BitVec.ofNat 48 (natAt value 2 6)
     (∀ m : SchedMode, item = 35 → v = positionIn schedList m →
       exec .writeSchedulingMode s = .next (written r 35 0 .ok (beNat 8 v.toNat)
         { u with egs := { u.egs with mode := m, turn := .a, turnCount := 0 } })) ∧
     (item = 37 → v = 0 →
       exec .writeBindingMode s = .next (written r 37 0 .ok (beNat 8 0)
         { u with mga := { u.mga with mode := .openMode, bound := none } })) ∧
     (item = 37 → v = 1 →
       exec .writeBindingMode s = .next (written r 37 0 .ok (beNat 8 1)
         { u with mga := { u.mga with mode := .first, bound := some r.source } })) ∧
     (item = 37 → v = 2 → u.mga.fixed ≠ 0 →
       exec .writeBindingMode s = .next (written r 37 0 .ok (beNat 8 2)
         { u with mga := { u.mga with mode := .fixed, bound := some u.mga.fixed } })) ∧
     (item = 37 → v = 2 → u.mga.fixed = 0 →
       exec .writeBindingMode s =
         .next (written r 37 0 .badValue (beNat 8 (positionIn bindingList u.mga.mode)) u)) ∧
     (item = 38 → natAt value 0 2 ≠ 0 ∨ a.getLsbD 40 = true ∨ a = 0 →
       exec .writeFixedAddress s = .next (written r 38 0 .badValue (beNat 8 u.mga.fixed.toNat) u)) ∧
     (item = 38 → natAt value 0 2 = 0 → a.getLsbD 40 = false → a ≠ 0 →
       exec .writeFixedAddress s = .next (written r 38 0 .ok (beNat 8 a.toNat)
         { u with mga := { u.mga with
           fixed := a, bound := if u.mga.mode = .fixed then some a else u.mga.bound } })))

/-- Encoder sense and K are stored. A reverse limit raises S to the new clamp value. A trigger mode, while
INSPECTING, arms afresh or stops. A pitch, while ARMED in PITCH mode, withdraws a deferred trigger and makes
the due test. Tmin raises Tp to it and fires a deferred trigger that it no longer holds back, and its result
gives Tp too. Tp is stored between Tmin and 1 000 000. Each is stored within its range and the result gives
the stored value. -/
def Obligations.LineSettingWritesTakeEffect : Prop :=
  (∀ (s : State) (r : Request) (rest : List Request) (item : Nat) (value : List Byte),
     Ready s r rest → Writes r item 0 value →
     let u := begun s r rest
     let v := readInt value
     let armed := u.dlb.service = .inspecting
     (item = 19 →
       let limit := clamp 1 65535 v
       exec .writeReverseLimit s = .next (written r 19 0 .ok (beNat 8 limit)
         { u with pos := { u.pos with
           reverseLimit := limit, acc := max (-((limit : Int) * 65536)) u.pos.acc } })) ∧
     (∀ m : TriggerMode, item = 20 → v = positionIn triggerList m →
       let t : State := { u with trg := { u.trg with mode := m } }
       exec .writeTriggerMode s = .next (written r 20 0 .ok (beNat 8 v.toNat)
         (if armed then
           match m with
           | .off => { t with trg := { t.trg with deferred := false, timer := none } }
           | .pitch => { t with trg := { t.trg with
               grid := t.pos.station, deferred := false, timer := none } }
           | .time => { t with trg := { t.trg with
               deferred := false, timer := some (t.now + t.trg.period) } }
          else t))) ∧
     (item = 21 →
       let pitch := clamp 1 65535 v
       let t : State := { u with trg := { u.trg with pitch := pitch } }
       exec .writePitch s = .next (written r 21 0 .ok (beNat 8 pitch)
         (if armed ∧ u.trg.mode = .pitch then
            pitchDueTest { t with trg := { t.trg with deferred := false } }
          else t))) ∧
     (item = 22 →
       let tmin := clamp 100 65535 v
       let period := max tmin u.trg.period
       exec .writeTmin s =
         .next (answered r .ok (resultData 22 0 .ok (beNat 8 tmin) (beNat 3 period))
           (fireDeferred { u with trg := { u.trg with tmin := tmin, period := period } }))) ∧
     (item = 23 →
       let period := clamp u.trg.tmin 1000000 v
       exec .writeTp s = .next (written r 23 0 .ok (beNat 8 period)
         { u with trg := { u.trg with period := period } }))) ∧
  (∀ (s : State) (r : Request) (rest : List Request) (item : Nat) (value : List Byte),
     Ready s r rest → Writes r item 0 value →
     let u := begun s r rest
     let v := readInt value
     (∀ m : Sense, item = 17 → v = positionIn senseList m →
       exec .writeConfigItem s = .next (written r 17 0 .ok (beNat 8 v.toNat)
         { u with pos := { u.pos with sense := m } })) ∧
     (item = 18 →
       exec .writeConfigItem s = .next (written r 18 0 .ok (beNat 8 (clamp 1 1048575 v))
         { u with pos := { u.pos with scale := clamp 1 1048575 v } })))

/-- Items 24 to 34, 36 and 39 are stored within their ranges and the result gives the stored value; nothing else
changes. An unknown or read-only item, an index out of the item’s range, a code outside the listed set of
items 1 to 5, 11, 17, 20, 30, 35 and 37, a value outside the range of items 31 to 33, an address of items 13
to 15 and 38 with a high byte not 0, and a head filter with a head id above 15, an enable above 1 or another
byte not 0 are refused with BAD_VALUE: nothing changes, and the result gives what the item returns, or 0
(the returned reading of a read-only item, and the refusal of negative values, are the model’s readings, log
23 and log 37; that a refused item 22 at an index other than 0 gives no Tp is its choice, log 43). The
refusals that depend on what is held, and those of single addresses and of item 16, are stated of their
items beside this one. -/
def Obligations.InspectionSettingWritesAndRefusals : Prop :=
  (∀ (s : State) (r : Request) (rest : List Request) (item index : Nat) (value : List Byte),
     Ready s r rest → Writes r item index value →
     let u := begun s r rest
     let v := readInt value
     let done (held : Nat) (t : State) : Host.Outcome State Fault Refusal :=
       .next (written r item index .ok (beNat 8 held) t)
     (∀ l : Fin 4, index = l.val → item = 28 →
       exec .writeConfigItem s = done (clamp 0 1000 v)
         { u with emu := { u.emu with
           lines := upd u.emu.lines l fun x => { x with time := clamp 0 1000 v } } }) ∧
     (∀ q : Fin 4, index = q.val → item = 36 →
       exec .writeConfigItem s = done (clamp 1 15 v)
         { u with egs := { u.egs with quotas := u.egs.quotas.set q (clamp 1 15 v) } }) ∧
     (∀ (f : Fin 2) (h : Fin 16) (b : Bool), index = f.val → item = 39 → v = (if b then 256 else 0) + h.val →
       exec .writeConfigItem s = done v.toNat
         { u with ctb := { u.ctb with filters := u.ctb.filters.set f { enabled := b, head := h } } }) ∧
     (index = 0 →
       (item = 24 → exec .writeConfigItem s = done (clamp 1 50000 v)
         { u with sau := { u.sau with timeout := clamp 1 50000 v } }) ∧
       (item = 25 → exec .writeConfigItem s = done (clamp 1 255 v)
         { u with sau := { u.sau with fenceLimit := clamp 1 255 v } }) ∧
       (item = 26 → exec .writeConfigItem s = done (clamp 0 255 v)
         { u with sau := { u.sau with restoreCount := clamp 0 255 v } }) ∧
       (item = 27 → exec .writeConfigItem s = done (clamp 10 60000 v)
         { u with tmu := { u.tmu with holdTime := clamp 10 60000 v } }) ∧
       (item = 29 → exec .writeConfigItem s = done (clamp 100 65535 v)
         { u with emu := { u.emu with stillTime := clamp 100 65535 v } }) ∧
       (∀ b : Bool, item = 30 → v = (if b then 1 else 0) → exec .writeConfigItem s = done v.toNat
         { u with emu := { u.emu with proofEnable := b } }) ∧
       (∀ n : Word32, item = 31 → v = n.toNat → exec .writeConfigItem s = done n.toNat
         { u with emu := { u.emu with proofCompare := n } }) ∧
       (∀ n : Word32, item = 32 → v = n.toNat → exec .writeConfigItem s = done n.toNat
         { u with emu := { u.emu with proofMask := n } }) ∧
       (∀ n : BitVec 4, item = 33 → v = n.toNat → exec .writeConfigItem s = done n.toNat
         { u with emu := { u.emu with proofStrands := n } }) ∧
       (item = 34 → exec .writeConfigItem s = done (clamp 10 10000 v)
         { u with pcu := { u.pcu with holdTime := clamp 10 10000 v } }))) ∧
  (∀ (s : State) (r : Request) (rest : List Request) (item index : Nat) (value : List Byte),
     Ready s r rest → Writes r item index value →
     let u := begun s r rest
     let v := readInt value
     let unknown := item = 0 ∨ 39 < item
     let misplaced := (1 ≤ item ∧ item ≤ 10 ∧ 8 ≤ index) ∨ ((item = 28 ∨ item = 36) ∧ 4 ≤ index) ∨
       (item = 39 ∧ 2 ≤ index) ∨ (11 ≤ item ∧ item ≤ 38 ∧ item ≠ 28 ∧ item ≠ 36 ∧ index ≠ 0)
     let beyond (last : Int) := v < 0 ∨ last < v
     let uncoded := (item = 1 ∧ beyond 2) ∨ (item = 2 ∧ beyond 2) ∨ (item = 3 ∧ beyond 15) ∨
       (item = 4 ∧ beyond 1) ∨ (item = 5 ∧ beyond 2) ∨ (item = 11 ∧ beyond 8) ∨ (item = 17 ∧ beyond 1) ∨
       (item = 20 ∧ beyond 2) ∨ (item = 30 ∧ beyond 1) ∨ (item = 31 ∧ beyond 0xFFFFFFFF) ∨
       (item = 32 ∧ beyond 0xFFFFFFFF) ∨ (item = 33 ∧ beyond 15) ∨ (item = 35 ∧ beyond 1) ∨
       (item = 37 ∧ beyond 2)
     let misformed := ((item = 13 ∨ item = 14 ∨ item = 15 ∨ item = 38) ∧ natAt value 0 2 ≠ 0) ∨
       (item = 39 ∧ (15 < natAt value 7 1 ∨ 1 < natAt value 6 1 ∨ natAt value 0 6 ≠ 0))
     unknown ∨ misplaced ∨ uncoded ∨ misformed →
     exec (rowOf r) s =
       .next (written r item index .badValue ((itemReading item index u).getD (beNat 8 0)) u))

/-! ## The laws that every step keeps -/

/-- State.reset meets RingLaw, QueueLaw, ListLaw, LibraryLaw, PoolLaw and PositionLaw. -/
def Obligations.ResetStateMeetsTheLaws : Prop :=
  RingLaw State.reset ∧ QueueLaw State.reset ∧ ListLaw State.reset ∧ LibraryLaw State.reset ∧
    PoolLaw State.reset ∧ PositionLaw State.reset

/-- If step s answers next t: rings in canonical form stay so (each listed cell in its own slot, slots rising
below 4096); queue A within 16, B within 32, C within 64 and the input queue within 4 frames, with no place
of queue A reserved, stay so; and the void list and the pending marks within 16, the blanking windows within
4 and each strand’s log within 16 entries stay so. -/
def Obligations.StepsKeepTheStoreLaws : Prop :=
  ∀ s t : State, step s = .next t →
    (RingLaw s → RingLaw t) ∧ (QueueLaw s → QueueLaw t) ∧ (ListLaw s → ListLaw t)

/-- If step s answers next t and s meets the law of the library, so does t: at most one slot IN_SERVICE and one
STAGED, a slot in service just while INSPECTING, none staged otherwise, UNCONFIGURED just while no geometry
is set, LOADING just under the open window. A slot IN_SERVICE in both s and t has the same record in both. -/
def Obligations.StepsKeepTheLibraryLaw : Prop :=
  ∀ s t : State, LibraryLaw s → step s = .next t →
    LibraryLaw t ∧
    ∀ k : Fin 8, (s.dlb.slots[k]).state = .inService → (t.dlb.slots[k]).state = .inService →
      (t.dlb.slots[k]).record = (s.dlb.slots[k]).record

/-- If step s answers next t and in s the eight reserves come to at most 1536 blocks and the blocks drawn from
the shared pool to at most 4096 less the reserves, the same holds in t. -/
def Obligations.StepsKeepThePoolLaw : Prop :=
  ∀ s t : State, PoolLaw s → step s = .next t → PoolLaw t

/-- If step s answers next t and s meets the law of the accumulator with K, the reverse limit, S and M in their
ranges, so does t; and every command but power-on reset and pin reset leaves M where it is or greater. -/
def Obligations.StepsKeepThePositionLaw : Prop :=
  (∀ s t : State, PositionLaw s → step s = .next t → PositionLaw t) ∧
  (∀ (c : Instr) (s t : State), (∀ x, c ≠ .powerOnReset x) → (∀ x, c ≠ .pinReset x) →
     exec c s = .next t → s.pos.station ≤ t.pos.station)
end

