-- ==== Sys2Proof/Laws/State.lean ====
section
/-! SUPPORT. What each update of State leaves in each field: true by rfl, one simp rule for each field. -/

namespace Sys2Proof.Machine

/-- The fields after `modPort`. -/
@[simp] theorem modPort_fields (p : Fin 8) (f : Port → Port) (s : State) :
    (State.modPort p f s).now = s.now ∧
    (State.modPort p f s).inReset = s.inReset ∧
    (State.modPort p f s).pins = s.pins ∧
    (State.modPort p f s).ports = upd s.ports p f ∧
    (State.modPort p f s).mirror = s.mirror ∧
    (State.modPort p f s).pool = s.pool ∧
    (State.modPort p f s).upl = s.upl ∧
    (State.modPort p f s).pos = s.pos ∧
    (State.modPort p f s).trg = s.trg ∧
    (State.modPort p f s).heads = s.heads ∧
    (State.modPort p f s).sau = s.sau ∧
    (State.modPort p f s).tmu = s.tmu ∧
    (State.modPort p f s).dlb = s.dlb ∧
    (State.modPort p f s).gev = s.gev ∧
    (State.modPort p f s).lmp = s.lmp ∧
    (State.modPort p f s).emu = s.emu ∧
    (State.modPort p f s).pcu = s.pcu ∧
    (State.modPort p f s).egs = s.egs ∧
    (State.modPort p f s).mga = s.mga ∧
    (State.modPort p f s).ctb = s.ctb ∧
    (State.modPort p f s).pending = s.pending :=
  ⟨rfl, rfl, rfl, rfl, rfl, rfl, rfl, rfl, rfl, rfl, rfl, rfl, rfl, rfl, rfl, rfl, rfl, rfl, rfl, rfl, rfl⟩

/-- The fields after `modHead`. -/
@[simp] theorem modHead_fields (h : Fin 16) (f : Head → Head) (s : State) :
    (State.modHead h f s).now = s.now ∧
    (State.modHead h f s).inReset = s.inReset ∧
    (State.modHead h f s).pins = s.pins ∧
    (State.modHead h f s).ports = s.ports ∧
    (State.modHead h f s).mirror = s.mirror ∧
    (State.modHead h f s).pool = s.pool ∧
    (State.modHead h f s).upl = s.upl ∧
    (State.modHead h f s).pos = s.pos ∧
    (State.modHead h f s).trg = s.trg ∧
    (State.modHead h f s).heads = upd s.heads h f ∧
    (State.modHead h f s).sau = s.sau ∧
    (State.modHead h f s).tmu = s.tmu ∧
    (State.modHead h f s).dlb = s.dlb ∧
    (State.modHead h f s).gev = s.gev ∧
    (State.modHead h f s).lmp = s.lmp ∧
    (State.modHead h f s).emu = s.emu ∧
    (State.modHead h f s).pcu = s.pcu ∧
    (State.modHead h f s).egs = s.egs ∧
    (State.modHead h f s).mga = s.mga ∧
    (State.modHead h f s).ctb = s.ctb ∧
    (State.modHead h f s).pending = s.pending :=
  ⟨rfl, rfl, rfl, rfl, rfl, rfl, rfl, rfl, rfl, rfl, rfl, rfl, rfl, rfl, rfl, rfl, rfl, rfl, rfl, rfl, rfl⟩

/-- The fields after `modSlot`. -/
@[simp] theorem modSlot_fields (i : Fin 16) (f : Slot → Slot) (s : State) :
    (State.modSlot i f s).now = s.now ∧
    (State.modSlot i f s).inReset = s.inReset ∧
    (State.modSlot i f s).pins = s.pins ∧
    (State.modSlot i f s).ports = s.ports ∧
    (State.modSlot i f s).mirror = s.mirror ∧
    (State.modSlot i f s).pool = s.pool ∧
    (State.modSlot i f s).upl = s.upl ∧
    (State.modSlot i f s).pos = s.pos ∧
    (State.modSlot i f s).trg = s.trg ∧
    (State.modSlot i f s).heads = s.heads ∧
    (State.modSlot i f s).sau = { s.sau with slots := upd s.sau.slots i f } ∧
    (State.modSlot i f s).tmu = s.tmu ∧
    (State.modSlot i f s).dlb = s.dlb ∧
    (State.modSlot i f s).gev = s.gev ∧
    (State.modSlot i f s).lmp = s.lmp ∧
    (State.modSlot i f s).emu = s.emu ∧
    (State.modSlot i f s).pcu = s.pcu ∧
    (State.modSlot i f s).egs = s.egs ∧
    (State.modSlot i f s).mga = s.mga ∧
    (State.modSlot i f s).ctb = s.ctb ∧
    (State.modSlot i f s).pending = s.pending :=
  ⟨rfl, rfl, rfl, rfl, rfl, rfl, rfl, rfl, rfl, rfl, rfl, rfl, rfl, rfl, rfl, rfl, rfl, rfl, rfl, rfl, rfl⟩

/-- The fields after `modOutput`. -/
@[simp] theorem modOutput_fields (p : Fin 8) (f : TrigOutput → TrigOutput) (s : State) :
    (State.modOutput p f s).now = s.now ∧
    (State.modOutput p f s).inReset = s.inReset ∧
    (State.modOutput p f s).pins = s.pins ∧
    (State.modOutput p f s).ports = s.ports ∧
    (State.modOutput p f s).mirror = s.mirror ∧
    (State.modOutput p f s).pool = s.pool ∧
    (State.modOutput p f s).upl = s.upl ∧
    (State.modOutput p f s).pos = s.pos ∧
    (State.modOutput p f s).trg = { s.trg with outputs := upd s.trg.outputs p f } ∧
    (State.modOutput p f s).heads = s.heads ∧
    (State.modOutput p f s).sau = s.sau ∧
    (State.modOutput p f s).tmu = s.tmu ∧
    (State.modOutput p f s).dlb = s.dlb ∧
    (State.modOutput p f s).gev = s.gev ∧
    (State.modOutput p f s).lmp = s.lmp ∧
    (State.modOutput p f s).emu = s.emu ∧
    (State.modOutput p f s).pcu = s.pcu ∧
    (State.modOutput p f s).egs = s.egs ∧
    (State.modOutput p f s).mga = s.mga ∧
    (State.modOutput p f s).ctb = s.ctb ∧
    (State.modOutput p f s).pending = s.pending :=
  ⟨rfl, rfl, rfl, rfl, rfl, rfl, rfl, rfl, rfl, rfl, rfl, rfl, rfl, rfl, rfl, rfl, rfl, rfl, rfl, rfl, rfl⟩

/-- The fields after `modRing`. -/
@[simp] theorem modRing_fields (t : Fin 4) (f : Ring → Ring) (s : State) :
    (State.modRing t f s).now = s.now ∧
    (State.modRing t f s).inReset = s.inReset ∧
    (State.modRing t f s).pins = s.pins ∧
    (State.modRing t f s).ports = s.ports ∧
    (State.modRing t f s).mirror = s.mirror ∧
    (State.modRing t f s).pool = s.pool ∧
    (State.modRing t f s).upl = s.upl ∧
    (State.modRing t f s).pos = s.pos ∧
    (State.modRing t f s).trg = s.trg ∧
    (State.modRing t f s).heads = s.heads ∧
    (State.modRing t f s).sau = s.sau ∧
    (State.modRing t f s).tmu = s.tmu ∧
    (State.modRing t f s).dlb = s.dlb ∧
    (State.modRing t f s).gev = s.gev ∧
    (State.modRing t f s).lmp = { s.lmp with rings := upd s.lmp.rings t f } ∧
    (State.modRing t f s).emu = s.emu ∧
    (State.modRing t f s).pcu = s.pcu ∧
    (State.modRing t f s).egs = s.egs ∧
    (State.modRing t f s).mga = s.mga ∧
    (State.modRing t f s).ctb = s.ctb ∧
    (State.modRing t f s).pending = s.pending :=
  ⟨rfl, rfl, rfl, rfl, rfl, rfl, rfl, rfl, rfl, rfl, rfl, rfl, rfl, rfl, rfl, rfl, rfl, rfl, rfl, rfl, rfl⟩

/-- The fields after `modPieces`. -/
@[simp] theorem modPieces_fields (t : Fin 4) (f : StrandPieces → StrandPieces) (s : State) :
    (State.modPieces t f s).now = s.now ∧
    (State.modPieces t f s).inReset = s.inReset ∧
    (State.modPieces t f s).pins = s.pins ∧
    (State.modPieces t f s).ports = s.ports ∧
    (State.modPieces t f s).mirror = s.mirror ∧
    (State.modPieces t f s).pool = s.pool ∧
    (State.modPieces t f s).upl = s.upl ∧
    (State.modPieces t f s).pos = s.pos ∧
    (State.modPieces t f s).trg = s.trg ∧
    (State.modPieces t f s).heads = s.heads ∧
    (State.modPieces t f s).sau = s.sau ∧
    (State.modPieces t f s).tmu = s.tmu ∧
    (State.modPieces t f s).dlb = s.dlb ∧
    (State.modPieces t f s).gev = s.gev ∧
    (State.modPieces t f s).lmp = s.lmp ∧
    (State.modPieces t f s).emu = s.emu ∧
    (State.modPieces t f s).pcu = { s.pcu with strands := upd s.pcu.strands t f } ∧
    (State.modPieces t f s).egs = s.egs ∧
    (State.modPieces t f s).mga = s.mga ∧
    (State.modPieces t f s).ctb = s.ctb ∧
    (State.modPieces t f s).pending = s.pending :=
  ⟨rfl, rfl, rfl, rfl, rfl, rfl, rfl, rfl, rfl, rfl, rfl, rfl, rfl, rfl, rfl, rfl, rfl, rfl, rfl, rfl, rfl⟩

/-- The fields after `modDie`. -/
@[simp] theorem modDie_fields (k : Fin 8) (f : DieSlot → DieSlot) (s : State) :
    (State.modDie k f s).now = s.now ∧
    (State.modDie k f s).inReset = s.inReset ∧
    (State.modDie k f s).pins = s.pins ∧
    (State.modDie k f s).ports = s.ports ∧
    (State.modDie k f s).mirror = s.mirror ∧
    (State.modDie k f s).pool = s.pool ∧
    (State.modDie k f s).upl = s.upl ∧
    (State.modDie k f s).pos = s.pos ∧
    (State.modDie k f s).trg = s.trg ∧
    (State.modDie k f s).heads = s.heads ∧
    (State.modDie k f s).sau = s.sau ∧
    (State.modDie k f s).tmu = s.tmu ∧
    (State.modDie k f s).dlb = { s.dlb with slots := upd s.dlb.slots k f } ∧
    (State.modDie k f s).gev = s.gev ∧
    (State.modDie k f s).lmp = s.lmp ∧
    (State.modDie k f s).emu = s.emu ∧
    (State.modDie k f s).pcu = s.pcu ∧
    (State.modDie k f s).egs = s.egs ∧
    (State.modDie k f s).mga = s.mga ∧
    (State.modDie k f s).ctb = s.ctb ∧
    (State.modDie k f s).pending = s.pending :=
  ⟨rfl, rfl, rfl, rfl, rfl, rfl, rfl, rfl, rfl, rfl, rfl, rfl, rfl, rfl, rfl, rfl, rfl, rfl, rfl, rfl, rfl⟩

/-- The fields after `setHeld`. -/
@[simp] theorem setHeld_fields (l : List HeldFrame) (s : State) :
    (setHeld l s).now = s.now ∧
    (setHeld l s).inReset = s.inReset ∧
    (setHeld l s).pins = s.pins ∧
    (setHeld l s).ports = s.ports ∧
    (setHeld l s).mirror = s.mirror ∧
    (setHeld l s).pool = { s.pool with held := l } ∧
    (setHeld l s).upl = s.upl ∧
    (setHeld l s).pos = s.pos ∧
    (setHeld l s).trg = s.trg ∧
    (setHeld l s).heads = s.heads ∧
    (setHeld l s).sau = s.sau ∧
    (setHeld l s).tmu = s.tmu ∧
    (setHeld l s).dlb = s.dlb ∧
    (setHeld l s).gev = s.gev ∧
    (setHeld l s).lmp = s.lmp ∧
    (setHeld l s).emu = s.emu ∧
    (setHeld l s).pcu = s.pcu ∧
    (setHeld l s).egs = s.egs ∧
    (setHeld l s).mga = s.mga ∧
    (setHeld l s).ctb = s.ctb ∧
    (setHeld l s).pending = s.pending :=
  ⟨rfl, rfl, rfl, rfl, rfl, rfl, rfl, rfl, rfl, rfl, rfl, rfl, rfl, rfl, rfl, rfl, rfl, rfl, rfl, rfl, rfl⟩

/-- The fields after `setSending`. -/
@[simp] theorem setSending_fields (x : Option Sending) (s : State) :
    (setSending x s).now = s.now ∧
    (setSending x s).inReset = s.inReset ∧
    (setSending x s).pins = s.pins ∧
    (setSending x s).ports = s.ports ∧
    (setSending x s).mirror = s.mirror ∧
    (setSending x s).pool = s.pool ∧
    (setSending x s).upl = { s.upl with sending := x } ∧
    (setSending x s).pos = s.pos ∧
    (setSending x s).trg = s.trg ∧
    (setSending x s).heads = s.heads ∧
    (setSending x s).sau = s.sau ∧
    (setSending x s).tmu = s.tmu ∧
    (setSending x s).dlb = s.dlb ∧
    (setSending x s).gev = s.gev ∧
    (setSending x s).lmp = s.lmp ∧
    (setSending x s).emu = s.emu ∧
    (setSending x s).pcu = s.pcu ∧
    (setSending x s).egs = s.egs ∧
    (setSending x s).mga = s.mga ∧
    (setSending x s).ctb = s.ctb ∧
    (setSending x s).pending = s.pending :=
  ⟨rfl, rfl, rfl, rfl, rfl, rfl, rfl, rfl, rfl, rfl, rfl, rfl, rfl, rfl, rfl, rfl, rfl, rfl, rfl, rfl, rfl⟩

/-- The fields after `setAlarms`. -/
@[simp] theorem setAlarms_fields (x : BitVec 9) (s : State) :
    (setAlarms x s).now = s.now ∧
    (setAlarms x s).inReset = s.inReset ∧
    (setAlarms x s).pins = s.pins ∧
    (setAlarms x s).ports = s.ports ∧
    (setAlarms x s).mirror = s.mirror ∧
    (setAlarms x s).pool = s.pool ∧
    (setAlarms x s).upl = s.upl ∧
    (setAlarms x s).pos = s.pos ∧
    (setAlarms x s).trg = s.trg ∧
    (setAlarms x s).heads = s.heads ∧
    (setAlarms x s).sau = s.sau ∧
    (setAlarms x s).tmu = s.tmu ∧
    (setAlarms x s).dlb = s.dlb ∧
    (setAlarms x s).gev = s.gev ∧
    (setAlarms x s).lmp = s.lmp ∧
    (setAlarms x s).emu = s.emu ∧
    (setAlarms x s).pcu = s.pcu ∧
    (setAlarms x s).egs = s.egs ∧
    (setAlarms x s).mga = { s.mga with alarms := x } ∧
    (setAlarms x s).ctb = s.ctb ∧
    (setAlarms x s).pending = s.pending :=
  ⟨rfl, rfl, rfl, rfl, rfl, rfl, rfl, rfl, rfl, rfl, rfl, rfl, rfl, rfl, rfl, rfl, rfl, rfl, rfl, rfl, rfl⟩

/-- The fields after `setWindow`. -/
@[simp] theorem setWindow_fields (w : TableWindow) (s : State) :
    (setWindow w s).now = s.now ∧
    (setWindow w s).inReset = s.inReset ∧
    (setWindow w s).pins = s.pins ∧
    (setWindow w s).ports = s.ports ∧
    (setWindow w s).mirror = s.mirror ∧
    (setWindow w s).pool = s.pool ∧
    (setWindow w s).upl = s.upl ∧
    (setWindow w s).pos = s.pos ∧
    (setWindow w s).trg = s.trg ∧
    (setWindow w s).heads = s.heads ∧
    (setWindow w s).sau = s.sau ∧
    (setWindow w s).tmu = s.tmu ∧
    (setWindow w s).dlb = s.dlb ∧
    (setWindow w s).gev = s.gev ∧
    (setWindow w s).lmp = s.lmp ∧
    (setWindow w s).emu = s.emu ∧
    (setWindow w s).pcu = s.pcu ∧
    (setWindow w s).egs = s.egs ∧
    (setWindow w s).mga = { s.mga with window := w } ∧
    (setWindow w s).ctb = s.ctb ∧
    (setWindow w s).pending = s.pending :=
  ⟨rfl, rfl, rfl, rfl, rfl, rfl, rfl, rfl, rfl, rfl, rfl, rfl, rfl, rfl, rfl, rfl, rfl, rfl, rfl, rfl, rfl⟩

/-- The fields after `setService`. -/
@[simp] theorem setService_fields (v : Service) (s : State) :
    (setService v s).now = s.now ∧
    (setService v s).inReset = s.inReset ∧
    (setService v s).pins = s.pins ∧
    (setService v s).ports = s.ports ∧
    (setService v s).mirror = s.mirror ∧
    (setService v s).pool = s.pool ∧
    (setService v s).upl = s.upl ∧
    (setService v s).pos = s.pos ∧
    (setService v s).trg = s.trg ∧
    (setService v s).heads = s.heads ∧
    (setService v s).sau = s.sau ∧
    (setService v s).tmu = s.tmu ∧
    (setService v s).dlb = { s.dlb with service := v } ∧
    (setService v s).gev = s.gev ∧
    (setService v s).lmp = s.lmp ∧
    (setService v s).emu = s.emu ∧
    (setService v s).pcu = s.pcu ∧
    (setService v s).egs = s.egs ∧
    (setService v s).mga = s.mga ∧
    (setService v s).ctb = s.ctb ∧
    (setService v s).pending = s.pending :=
  ⟨rfl, rfl, rfl, rfl, rfl, rfl, rfl, rfl, rfl, rfl, rfl, rfl, rfl, rfl, rfl, rfl, rfl, rfl, rfl, rfl, rfl⟩

/-- The fields after `setStillness`. -/
@[simp] theorem setStillness_fields (v : Stillness) (s : State) :
    (setStillness v s).now = s.now ∧
    (setStillness v s).inReset = s.inReset ∧
    (setStillness v s).pins = s.pins ∧
    (setStillness v s).ports = s.ports ∧
    (setStillness v s).mirror = s.mirror ∧
    (setStillness v s).pool = s.pool ∧
    (setStillness v s).upl = s.upl ∧
    (setStillness v s).pos = s.pos ∧
    (setStillness v s).trg = s.trg ∧
    (setStillness v s).heads = s.heads ∧
    (setStillness v s).sau = s.sau ∧
    (setStillness v s).tmu = s.tmu ∧
    (setStillness v s).dlb = s.dlb ∧
    (setStillness v s).gev = s.gev ∧
    (setStillness v s).lmp = s.lmp ∧
    (setStillness v s).emu = { s.emu with stillness := v } ∧
    (setStillness v s).pcu = s.pcu ∧
    (setStillness v s).egs = s.egs ∧
    (setStillness v s).mga = s.mga ∧
    (setStillness v s).ctb = s.ctb ∧
    (setStillness v s).pending = s.pending :=
  ⟨rfl, rfl, rfl, rfl, rfl, rfl, rfl, rfl, rfl, rfl, rfl, rfl, rfl, rfl, rfl, rfl, rfl, rfl, rfl, rfl, rfl⟩

/-- The fields after `setTemp`. -/
@[simp] theorem setTemp_fields (t : Fin 4) (r : StrandTemp) (s : State) :
    (setTemp t r s).now = s.now ∧
    (setTemp t r s).inReset = s.inReset ∧
    (setTemp t r s).pins = s.pins ∧
    (setTemp t r s).ports = s.ports ∧
    (setTemp t r s).mirror = s.mirror ∧
    (setTemp t r s).pool = s.pool ∧
    (setTemp t r s).upl = s.upl ∧
    (setTemp t r s).pos = s.pos ∧
    (setTemp t r s).trg = s.trg ∧
    (setTemp t r s).heads = s.heads ∧
    (setTemp t r s).sau = s.sau ∧
    (setTemp t r s).tmu = { s.tmu with strands := upd s.tmu.strands t fun _ => r } ∧
    (setTemp t r s).dlb = s.dlb ∧
    (setTemp t r s).gev = s.gev ∧
    (setTemp t r s).lmp = s.lmp ∧
    (setTemp t r s).emu = s.emu ∧
    (setTemp t r s).pcu = s.pcu ∧
    (setTemp t r s).egs = s.egs ∧
    (setTemp t r s).mga = s.mga ∧
    (setTemp t r s).ctb = s.ctb ∧
    (setTemp t r s).pending = s.pending :=
  ⟨rfl, rfl, rfl, rfl, rfl, rfl, rfl, rfl, rfl, rfl, rfl, rfl, rfl, rfl, rfl, rfl, rfl, rfl, rfl, rfl, rfl⟩

/-- The fields after `modLine`. -/
@[simp] theorem modLine_fields (l : EventLine) (f : LineFilter → LineFilter) (s : State) :
    (modLine l f s).now = s.now ∧
    (modLine l f s).inReset = s.inReset ∧
    (modLine l f s).pins = s.pins ∧
    (modLine l f s).ports = s.ports ∧
    (modLine l f s).mirror = s.mirror ∧
    (modLine l f s).pool = s.pool ∧
    (modLine l f s).upl = s.upl ∧
    (modLine l f s).pos = s.pos ∧
    (modLine l f s).trg = s.trg ∧
    (modLine l f s).heads = s.heads ∧
    (modLine l f s).sau = s.sau ∧
    (modLine l f s).tmu = s.tmu ∧
    (modLine l f s).dlb = s.dlb ∧
    (modLine l f s).gev = s.gev ∧
    (modLine l f s).lmp = s.lmp ∧
    (modLine l f s).emu = { s.emu with lines := upd s.emu.lines (lineIndex l) f } ∧
    (modLine l f s).pcu = s.pcu ∧
    (modLine l f s).egs = s.egs ∧
    (modLine l f s).mga = s.mga ∧
    (modLine l f s).ctb = s.ctb ∧
    (modLine l f s).pending = s.pending :=
  ⟨rfl, rfl, rfl, rfl, rfl, rfl, rfl, rfl, rfl, rfl, rfl, rfl, rfl, rfl, rfl, rfl, rfl, rfl, rfl, rfl, rfl⟩

/-- The fields after `setCounters`. -/
@[simp] theorem setCounters_fields (c : Counters) (s : State) :
    (setCounters c s).now = s.now ∧
    (setCounters c s).inReset = s.inReset ∧
    (setCounters c s).pins = s.pins ∧
    (setCounters c s).ports = s.ports ∧
    (setCounters c s).mirror = s.mirror ∧
    (setCounters c s).pool = s.pool ∧
    (setCounters c s).upl = s.upl ∧
    (setCounters c s).pos = s.pos ∧
    (setCounters c s).trg = s.trg ∧
    (setCounters c s).heads = s.heads ∧
    (setCounters c s).sau = s.sau ∧
    (setCounters c s).tmu = s.tmu ∧
    (setCounters c s).dlb = s.dlb ∧
    (setCounters c s).gev = s.gev ∧
    (setCounters c s).lmp = s.lmp ∧
    (setCounters c s).emu = s.emu ∧
    (setCounters c s).pcu = s.pcu ∧
    (setCounters c s).egs = s.egs ∧
    (setCounters c s).mga = s.mga ∧
    (setCounters c s).ctb = c ∧
    (setCounters c s).pending = s.pending :=
  ⟨rfl, rfl, rfl, rfl, rfl, rfl, rfl, rfl, rfl, rfl, rfl, rfl, rfl, rfl, rfl, rfl, rfl, rfl, rfl, rfl, rfl⟩

end Sys2Proof.Machine
end

