-- ==== Sys2Proof/Laws/Requests.lean ====
section
/-! SUPPORT. What a management row does with a request that the agent takes: the spec lemmas of `takeRequest`. -/

namespace Sys2Proof.Machine

/-- `answered` is the responding of a request. -/
theorem respond_eq_answered (r : Request) (p : Reply) (s : State) :
    respond r p s = answered r p.status p.data s := rfl

/-- What `bindFirst` makes of a state from which a request has been taken. -/
theorem bindFirst_taken (s : State) (r : Request) (rest : List Request) :
    bindFirst r.source
      { s with mga := { s.mga with input := rest }, egs := { s.egs with reserved := true } } =
      claimed s r rest := by
  unfold bindFirst claimed
  rcases hm : s.mga.mode <;> rcases hb : s.mga.bound <;> simp [hb]

/-- The agent may take a request that is `Taken`. -/
theorem mayTake_of_taken {s : State} {r : Request} {rest : List Request} (h : Taken s r rest) :
    mayTake s = true := by
  obtain ⟨-, h1, h2, h3⟩ := h
  simp [mayTake, h1, h2, queueALoad, Config.queueA, h3]

/-- The binding lets the source of a claimed request through just when it is `Bound`. -/
theorem bindingPasses_claimed (s : State) (r : Request) (rest : List Request) :
    bindingPasses r.source (claimed s r rest) = true ↔ Bound s r.source := by
  unfold bindingPasses claimed Bound
  rcases hm : s.mga.mode <;> rcases hb : s.mga.bound <;> simp

/-- A row takes a ready request of its own: the execution's reply is answered. -/
theorem takeRequest_ready {s : State} {r : Request} {rest : List Request} (h : Ready s r rest)
    {selects : Request → Bool} (hs : selects r = true) (sizeOk : Nat → Bool) (run : Execution) :
    takeRequest selects sizeOk run s =
      if sizeOk r.args.length then
        answered r (run r (begun s r rest)).1.status (run r (begun s r rest)).1.data
          (run r (begun s r rest)).2
      else answered r .badFormat [] (begun s r rest) := by
  have hk : (if keepsWindow r.command then claimed s r rest else closeWindow (claimed s r rest)) =
      begun s r rest := by
    unfold begun keepsWindow
    simp only [Bool.or_eq_true, beq_iff_eq]
  simp only [takeRequest, h.1.1, mayTake_of_taken h.1, hs, Bool.and_true, if_true, runRequest,
    bindFirst_taken, respond_eq_answered, judgeRequest, (bindingPasses_claimed s r rest).2 h.2, hk]
  split <;> rfl

/-- A row answers a request of its own from an unbound source with NOT_BOUND. -/
theorem takeRequest_unbound {s : State} {r : Request} {rest : List Request} (h : Taken s r rest)
    (hb : ¬ Bound s r.source) {selects : Request → Bool} (hs : selects r = true) (sizeOk : Nat → Bool)
    (run : Execution) :
    takeRequest selects sizeOk run s = answered r .notBound [] (claimed s r rest) := by
  have hp : bindingPasses r.source (claimed s r rest) = false := by
    rw [Bool.eq_false_iff]
    exact fun hp => hb ((bindingPasses_claimed s r rest).1 hp)
  simp only [takeRequest, h.1, mayTake_of_taken h, hs, Bool.and_true, if_true, runRequest,
    bindFirst_taken, respond_eq_answered, judgeRequest, hp]
  rfl

/-- A row leaves the request of another row. -/
theorem takeRequest_other {s : State} {r : Request} {rest : List Request} (h : s.mga.input = r :: rest)
    {selects : Request → Bool} (hs : selects r = false) (sizeOk : Nat → Bool) (run : Execution) :
    takeRequest selects sizeOk run s = s := by
  simp [takeRequest, h, hs]

/-- No row takes anything from an empty input queue. -/
theorem takeRequest_nil {s : State} (h : s.mga.input = []) (selects : Request → Bool) (sizeOk : Nat → Bool)
    (run : Execution) : takeRequest selects sizeOk run s = s := by
  simp [takeRequest, h]

/-- No row takes a request while the agent takes none. -/
theorem takeRequest_barred {s : State} (h : mayTake s = false) (selects : Request → Bool)
    (sizeOk : Nat → Bool) (run : Execution) : takeRequest selects sizeOk run s = s := by
  unfold takeRequest
  split
  · rfl
  · simp [h]

end Sys2Proof.Machine
end

