-- ==== Sys2Proof/Laws/Config.lean ====
section
/-! SUPPORT. What a SET_CONFIG request of one entry does: its bytes as an entry, the judgement of that entry, and
the result it answers. -/

namespace Sys2Proof.Machine

/-- A number below 65536 in two bytes. -/
theorem natAt_beNat_two (n : Nat) (h : n < 65536) (rest : List Byte) : natAt (beNat 2 n ++ rest) 0 2 = n := by
  simp [natAt, field, beNat, readNat]
  omega

/-- A number below 256 in one byte. -/
theorem natAt_beNat_one (n m : Nat) (h : n < 256) (rest : List Byte) :
    natAt (beNat 2 m ++ (beNat 1 n ++ rest)) 2 1 = n := by
  simp [natAt, field, beNat, readNat]
  omega

/-- The item number of a one-entry request. -/
theorem Writes.firstItem {r : Request} {item index : Nat} {value : List Byte}
    (h : Writes r item index value) : firstItem r = item := by
  obtain ⟨-, h1, -, -, h4⟩ := h
  simp only [Machine.firstItem, h4, List.append_assoc]
  exact natAt_beNat_two item h1 _

/-- A one-entry request has eleven argument bytes. -/
theorem Writes.length {r : Request} {item index : Nat} {value : List Byte}
    (h : Writes r item index value) : r.args.length = 11 := by
  obtain ⟨-, -, -, h3, h4⟩ := h
  simp [h4, beNat, h3]

/-- A one-entry request has a sound size. -/
theorem Writes.sound {r : Request} {item index : Nat} {value : List Byte}
    (h : Writes r item index value) : soundSetConfig r = true := by
  simp [soundSetConfig, isCommand, sizeOfParts, h.1, h.length]

/-- The one entry of a one-entry request. -/
theorem Writes.entries {r : Request} {item index : Nat} {value : List Byte}
    (h : Writes r item index value) :
    configEntries r.args = [{ item := item, index := index, value := value }] := by
  have hl := h.length
  obtain ⟨-, h1, h2, h3, h4⟩ := h
  simp only [configEntries, hl]
  simp only [h4, List.append_assoc, List.range_succ, List.range_zero, List.nil_append, List.map_cons,
    List.map_nil, Nat.mul_zero, Nat.zero_add, natAt_beNat_two item h1, natAt_beNat_one index item h2]
  simp [field, beNat, List.take_of_length_le (Nat.le_of_eq h3)]

/-- The bytes that a result adds for the item of its entry (R34). -/
def addedBytes (item index : Nat) (s : State) : List Byte :=
  if item = 22 ∧ index = 0 then beNat 3 s.trg.period else []

/-- A one-entry request executed. -/
theorem setConfig_one {r : Request} {item index : Nat} {value : List Byte}
    (h : Writes r item index value) (s : State) :
    setConfig r s =
      let w := writeItem r.source { item := item, index := index, value := value } s
      ({ status := w.1
         data := resultData item index w.1 ((itemReading item index w.2).getD (beNat 8 0))
           (addedBytes item index w.2) }, w.2) := by
  simp only [setConfig, h.entries, List.foldl_cons, List.foldl_nil, setEntry, List.nil_append]
  congr 2
  · simp only [firstRefusal, List.find?_cons, List.find?_nil]
    split
    · rfl
    · rename_i h
      exact (by simpa using h : _ = Status.ok).symm
  · simp [counted, setResult, entryResult, resultData, byteOf, addedBytes, show beNat 1 1 = [1#8] by decide]

/-- A ready one-entry request taken by a row that selects it. -/
theorem takeRequest_writes {s : State} {r : Request} {rest : List Request} {item index : Nat}
    {value : List Byte} (h : Ready s r rest) (hw : Writes r item index value)
    {selects : Request → Bool} (hs : selects r = true) :
    takeRequest selects (sizeOfParts 11 1 8) setConfig s =
      let w := writeItem r.source { item := item, index := index, value := value } (begun s r rest)
      answered r w.1
        (resultData item index w.1 ((itemReading item index w.2).getD (beNat 8 0))
          (addedBytes item index w.2)) w.2 := by
  rw [takeRequest_ready h hs, setConfig_one hw, if_pos (by simp [sizeOfParts, hw.length])]

/-- A ready one-entry request taken by the row of its item. -/
theorem takeWrite_writes {s : State} {r : Request} {rest : List Request} {item index : Nat}
    {value : List Byte} (h : Ready s r rest) (hw : Writes r item index value) {items : List Nat}
    (hi : items.contains item = true) :
    takeWrite items s =
      let w := writeItem r.source { item := item, index := index, value := value } (begun s r rest)
      answered r w.1
        (resultData item index w.1 ((itemReading item index w.2).getD (beNat 8 0))
          (addedBytes item index w.2)) w.2 :=
  takeRequest_writes h hw (by rw [hw.sound, hw.firstItem, hi]; rfl)

/-- A ready one-entry request of an item without a row of its own, taken by WRITE_CONFIG_ITEM. -/
theorem execWriteConfigItem_writes {s : State} {r : Request} {rest : List Request} {item index : Nat}
    {value : List Byte} (h : Ready s r rest) (hw : Writes r item index value)
    (hi : itemsWithRow.contains item = false) :
    execWriteConfigItem s = .next
      (let w := writeItem r.source { item := item, index := index, value := value } (begun s r rest)
       answered r w.1
        (resultData item index w.1 ((itemReading item index w.2).getD (beNat 8 0))
          (addedBytes item index w.2)) w.2) :=
  congrArg _ (takeRequest_writes h hw (by
    rw [hw.sound, hw.firstItem, hi]
    simp [isCommand, hw.1]))

end Sys2Proof.Machine
end

