-- ==== Sys2Proof/Laws/Vec.lean ====
section
/-! SUPPORT. What `upd` and `updAll` leave at each index, and folds over instances. -/

namespace Sys2Proof.Machine

/-- The entry at j after the entry at i was changed. -/
theorem upd_get {α : Type} {n : Nat} (v : Vector α n) (i j : Fin n) (f : α → α) :
    (upd v i f)[j] = if i = j then f v[i] else v[j] := by
  simp only [upd, Fin.getElem_fin, Vector.getElem_set, Fin.ext_iff]

/-- The changed entry. -/
theorem upd_get_self {α : Type} {n : Nat} (v : Vector α n) (i : Fin n) (f : α → α) :
    (upd v i f)[i] = f v[i] := (upd_get v i i f).trans (if_pos rfl)

/-- The other entries are kept. -/
theorem upd_get_other {α : Type} {n : Nat} (v : Vector α n) {i j : Fin n} (f : α → α) (h : i ≠ j) :
    (upd v i f)[j] = v[j] := (upd_get v i j f).trans (if_neg h)

/-- The entry at a number j after the entry at i was changed, as simp writes it. -/
@[simp] theorem upd_getElem {α : Type} {n : Nat} (v : Vector α n) (i : Fin n) (f : α → α) (j : Nat)
    (h : j < n) : (upd v i f)[j] = if i.val = j then f v[i.val] else v[j] := by
  simp only [upd, Fin.getElem_fin, Vector.getElem_set]

/-- Every entry is changed. -/
theorem updAll_get {α : Type} {n : Nat} (v : Vector α n) (i : Fin n) (f : α → α) :
    (updAll v f)[i] = f v[i] := by simp [updAll, Fin.getElem_fin]

/-- Every entry is changed, as simp writes it. -/
@[simp] theorem updAll_getElem {α : Type} {n : Nat} (v : Vector α n) (f : α → α) (j : Nat) (h : j < n) :
    (updAll v f)[j] = f v[j] := by simp [updAll, Fin.getElem_fin]

/-- Two changes of one entry are one change. -/
theorem upd_upd {α : Type} {n : Nat} (v : Vector α n) (i : Fin n) (f g : α → α) :
    upd (upd v i f) i g = upd v i (g ∘ f) := by
  simp [upd, Fin.getElem_fin]

/-- A projection that each change keeps is kept by the fold of changes. -/
theorem forEach_keeps {α β : Type} (proj : State → β) (l : List α) (f : α → State → State)
    (h : ∀ a s, proj (f a s) = proj s) (s : State) : proj (forEach l f s) = proj s := by
  induction l generalizing s with
  | nil => rfl
  | cons a l ih => exact (ih (f a s)).trans (h a s)

/-- A property that each change keeps is kept by the fold of changes. -/
theorem forEach_invariant {α : Type} {P : State → Prop} (l : List α) {f : α → State → State}
    (h : ∀ a ∈ l, ∀ s, P s → P (f a s)) {s : State} (hs : P s) : P (forEach l f s) := by
  induction l generalizing s with
  | nil => exact hs
  | cons a l ih =>
    exact ih (fun b hb => h b (List.mem_cons_of_mem a hb)) (h a (List.mem_cons_self ..) s hs)

end Sys2Proof.Machine
end

