-- ==== Sys2Proof/Laws/Footprint.lean ====
section
/-! SUPPORT. What a step can change, said once: State divided into parts, and for each shared operation the
parts it can change. Every other part is kept, which `Only.kept` gives to a proof. -/

namespace Sys2Proof.Machine

/-- The settings that only configuration writes and resets change (but for those of ports, triggers and
filters, which stand in parts of their own). -/
structure Settings where
  mirror : Option (Fin 8)
  level : Nat
  station : Address
  recorder : Address
  report : Address
  frameType : BitVec 16
  straps : BitVec 3
  sense : Sense
  scale : Nat
  limit : Nat
  timeout : Nat
  fenceLimit : Nat
  restoreCount : Nat
  tempHold : Nat
  stillTime : Nat
  proofEnable : Bool
  proofCompare : Word32
  proofMask : Word32
  proofStrands : BitVec 4
  gateHold : Nat
  sched : SchedMode
  quotas : Vector Nat 4

/-- The settings of s. -/
def State.settings (s : State) : Settings :=
  { mirror := s.mirror,
    level := s.pool.evictionLevel,
    station := s.upl.station,
    recorder := s.upl.recorder,
    report := s.upl.report,
    frameType := s.upl.frameType,
    straps := s.upl.straps,
    sense := s.pos.sense,
    scale := s.pos.scale,
    limit := s.pos.reverseLimit,
    timeout := s.sau.timeout,
    fenceLimit := s.sau.fenceLimit,
    restoreCount := s.sau.restoreCount,
    tempHold := s.tmu.holdTime,
    stillTime := s.emu.stillTime,
    proofEnable := s.emu.proofEnable,
    proofCompare := s.emu.proofCompare,
    proofMask := s.emu.proofMask,
    proofStrands := s.emu.proofStrands,
    gateHold := s.pcu.holdTime,
    sched := s.egs.mode,
    quotas := s.egs.quotas }

/-- The parts of State, as fine as the blocks share them. -/
inductive Part
  | now | inReset | pins | pending | ports | reserves | held | sending | settings | station | acc
  | latch | phase | trg | heads | slots | voids | temps | curves | service | dies | gev | geometry
  | rings | lines | stillness | marks | blanking | pieces | log | queueA | queueB | queueC
  | reserved | turn | binding | input | window | alarms | resetPhase | counters
  deriving DecidableEq, Repr

/-- The type of a part. -/
def Part.Val : Part → Type
  | .now => Nat
  | .inReset => Bool
  | .pins => Pins
  | .pending => List Instr
  | .ports => Vector Port 8
  | .reserves => Vector Nat 8
  | .held => List HeldFrame
  | .sending => Option Sending
  | .settings => Settings
  | .station => Nat
  | .acc => Int
  | .latch => Bool
  | .phase => Levels
  | .trg => Trigger
  | .heads => Vector Head 16
  | .slots => Vector Slot 16
  | .voids => List (BitVec 16)
  | .temps => Vector StrandTemp 4
  | .curves => Vector Curve 4
  | .service => Service
  | .dies => Vector DieSlot 8
  | .gev => Evaluator
  | .geometry => Option Geometry
  | .rings => Vector Ring 4
  | .lines => Vector LineFilter 4
  | .stillness => Stillness
  | .marks => List PendingMark
  | .blanking => List BlankWindow
  | .pieces => Vector StrandPieces 4
  | .log => List LogEntry
  | .queueA => List OutFrame
  | .queueB => List OutFrame
  | .queueC => List OutFrame
  | .reserved => Bool
  | .turn => QueueId × Nat
  | .binding => BindingMode × Address × Option Address
  | .input => List Request
  | .window => TableWindow
  | .alarms => BitVec 9
  | .resetPhase => ResetPhase
  | .counters => Counters

/-- A part of s. -/
def Part.get (b : Part) (s : State) : b.Val :=
  match b with
  | .now => s.now
  | .inReset => s.inReset
  | .pins => s.pins
  | .pending => s.pending
  | .ports => s.ports
  | .reserves => Vector.ofFn fun p => (s.ports[p]).reserve
  | .held => s.pool.held
  | .sending => s.upl.sending
  | .settings => s.settings
  | .station => s.pos.station
  | .acc => s.pos.acc
  | .latch => s.pos.latch
  | .phase => s.pos.phase
  | .trg => s.trg
  | .heads => s.heads
  | .slots => s.sau.slots
  | .voids => s.sau.voidList
  | .temps => s.tmu.strands
  | .curves => s.tmu.curves
  | .service => s.dlb.service
  | .dies => s.dlb.slots
  | .gev => s.gev
  | .geometry => s.lmp.geometry
  | .rings => s.lmp.rings
  | .lines => s.emu.lines
  | .stillness => s.emu.stillness
  | .marks => s.emu.pending
  | .blanking => s.emu.blanking
  | .pieces => s.pcu.strands
  | .log => s.pcu.log
  | .queueA => s.egs.a
  | .queueB => s.egs.b
  | .queueC => s.egs.c
  | .reserved => s.egs.reserved
  | .turn => (s.egs.turn, s.egs.turnCount)
  | .binding => (s.mga.mode, s.mga.fixed, s.mga.bound)
  | .input => s.mga.input
  | .window => s.mga.window
  | .alarms => s.mga.alarms
  | .resetPhase => s.mga.reset
  | .counters => s.ctb

/-- t differs from s in the listed parts only. -/
def Only (l : List Part) (s t : State) : Prop := ∀ b, b ∈ l ∨ b.get t = b.get s

/-- Every part of the first list is in the second. -/
abbrev Within (a l : List Part) : Prop := a.all l.contains = true

/-- Nothing changed. -/
theorem Only.rfl {l : List Part} {s : State} : Only l s s := fun _ => .inr (Eq.refl _)

/-- One change after another. -/
theorem Only.trans {l : List Part} {s t u : State} (h : Only l s t) (k : Only l t u) : Only l s u :=
  fun b => (h b).elim .inl fun hb => (k b).imp id fun kb => kb.trans hb

/-- More parts may be listed. -/
theorem Only.widen {a l : List Part} {s t : State} (h : Only a s t) (hl : Within a l) : Only l s t :=
  fun b => (h b).imp (fun hb => List.contains_iff_mem.1 (List.all_eq_true.1 hl b hb)) id

/-- A change of the listed parts after another. -/
theorem Only.after {a l : List Part} {s u t : State} (h : Only l s u) (k : Only a u t)
    (hl : Within a l) : Only l s t := h.trans (k.widen hl)

/-- A part that is not listed is kept. -/
theorem Only.kept {l : List Part} {s t : State} (h : Only l s t) (b : Part)
    (hb : l.contains b = false := by decide) : b.get t = b.get s :=
  (h b).resolve_left fun hm => by
    have := List.contains_iff_mem.2 hm
    rw [hb] at this
    cases this

/-- A change folded over a list of instances. -/
theorem Only.fold {α : Type} {l : List Part} {s u : State} {xs : List α} {f : α → State → State}
    (hf : ∀ a u, Only l s u → Only l s (f a u)) (h : Only l s u) : Only l s (forEach xs f u) :=
  forEach_invariant xs (fun a _ u hu => hf a u hu) h

/-- Two states with the same parts are the same state. -/
theorem Part.ext {s t : State} (h : ∀ b : Part, b.get t = b.get s) : t = s := by
  have h1 := h .now; have h2 := h .inReset; have h3 := h .pins; have h4 := h .pending; have h5 := h .ports
  have h7 := h .held; have h8 := h .sending; have h9 := h .settings; have h10 := h .station
  have h11 := h .acc; have h12 := h .latch; have h13 := h .phase; have h14 := h .trg; have h15 := h .heads
  have h16 := h .slots; have h17 := h .voids; have h18 := h .temps; have h19 := h .curves
  have h20 := h .service; have h21 := h .dies; have h22 := h .gev; have h23 := h .geometry
  have h24 := h .rings; have h25 := h .lines; have h26 := h .stillness; have h27 := h .marks
  have h28 := h .blanking; have h29 := h .pieces; have h30 := h .log; have h31 := h .queueA
  have h32 := h .queueB; have h33 := h .queueC; have h34 := h .reserved; have h35 := h .turn
  have h36 := h .binding; have h37 := h .input; have h38 := h .window; have h39 := h .alarms
  have h40 := h .resetPhase; have h41 := h .counters
  clear h
  rcases s with ⟨_, _, _, _, _, ⟨⟩, ⟨⟩, ⟨⟩, _, _, ⟨⟩, ⟨⟩, ⟨⟩, _, ⟨⟩, ⟨⟩, ⟨⟩, ⟨⟩, ⟨⟩, _, _⟩
  rcases t with ⟨_, _, _, _, _, ⟨⟩, ⟨⟩, ⟨⟩, _, _, ⟨⟩, ⟨⟩, ⟨⟩, _, ⟨⟩, ⟨⟩, ⟨⟩, ⟨⟩, ⟨⟩, _, _⟩
  obtain ⟨rfl, rfl⟩ := Prod.mk.inj h35
  obtain ⟨rfl, h36⟩ := Prod.mk.inj h36
  obtain ⟨rfl, rfl⟩ := Prod.mk.inj h36
  cases h9
  simp only [Part.get] at *
  simp_all
section
set_option Elab.async false

/-- The parts that a piece that completes can change. -/
abbrev pieceParts : List Part := [.pieces, .log, .counters, .alarms, .queueA, .queueB]

/-- The parts that a slot that closes can change. -/
abbrev slotParts : List Part := [.heads, .alarms, .queueA, .counters, .slots, .gev]

/-- The parts that an advance of the length map can change. -/
abbrev mapParts : List Part := [.rings, .marks] ++ pieceParts

/-- The parts that a flush can change. -/
abbrev flushParts : List Part := [.geometry, .slots, .voids, .gev, .blanking] ++ mapParts

/-- The parts that a trigger that fires can change. -/
abbrev triggerParts : List Part := [.trg, .voids] ++ slotParts

/-- The parts that an advance can change. -/
abbrev advanceParts : List Part := [.latch, .stillness, .trg, .heads, .slots, .gev, .voids] ++
    mapParts

/-- The parts that a die placed in service can change. -/
abbrev dieParts : List Part := [.dies, .curves, .temps] ++ flushParts

/-- What `modPort` can change. -/
theorem modPort_only {p : Fin 8} {f : Port → Port} {l : List Part} {s u : State} (hu : Only l s u)
    (hl : Within [.ports, .reserves] l := by decide) : Only l s (State.modPort p f u) :=
  hu.after (by intro b; cases b <;> first | exact .inl (by decide) | exact .inr (Eq.refl _)) hl

/-- What `modHead` can change. -/
theorem modHead_only {h : Fin 16} {f : Head → Head} {l : List Part} {s u : State} (hu : Only l s u)
    (hl : Within [.heads] l := by decide) : Only l s (State.modHead h f u) :=
  hu.after (by intro b; cases b <;> first | exact .inl (by decide) | exact .inr (Eq.refl _)) hl

/-- What `modSlot` can change. -/
theorem modSlot_only {i : Fin 16} {f : Slot → Slot} {l : List Part} {s u : State} (hu : Only l s u)
    (hl : Within [.slots] l := by decide) : Only l s (State.modSlot i f u) :=
  hu.after (by intro b; cases b <;> first | exact .inl (by decide) | exact .inr (Eq.refl _)) hl

/-- What `modOutput` can change. -/
theorem modOutput_only {p : Fin 8} {f : TrigOutput → TrigOutput} {l : List Part} {s u : State}
    (hu : Only l s u) (hl : Within [.trg] l := by decide) : Only l s (State.modOutput p f u) :=
  hu.after (by intro b; cases b <;> first | exact .inl (by decide) | exact .inr (Eq.refl _)) hl

/-- What `modRing` can change. -/
theorem modRing_only {t : Fin 4} {f : Ring → Ring} {l : List Part} {s u : State} (hu : Only l s u)
    (hl : Within [.rings] l := by decide) : Only l s (State.modRing t f u) :=
  hu.after (by intro b; cases b <;> first | exact .inl (by decide) | exact .inr (Eq.refl _)) hl

/-- What `modPieces` can change. -/
theorem modPieces_only {t : Fin 4} {f : StrandPieces → StrandPieces} {l : List Part} {s u : State}
    (hu : Only l s u) (hl : Within [.pieces] l := by decide) : Only l s (State.modPieces t f u) :=
  hu.after (by intro b; cases b <;> first | exact .inl (by decide) | exact .inr (Eq.refl _)) hl

/-- What `modDie` can change. -/
theorem modDie_only {k : Fin 8} {f : DieSlot → DieSlot} {l : List Part} {s u : State}
    (hu : Only l s u) (hl : Within [.dies] l := by decide) : Only l s (State.modDie k f u) :=
  hu.after (by intro b; cases b <;> first | exact .inl (by decide) | exact .inr (Eq.refl _)) hl

/-- What `setHeld` can change. -/
theorem setHeld_only {x : List HeldFrame} {l : List Part} {s u : State} (hu : Only l s u)
    (hl : Within [.held] l := by decide) : Only l s (setHeld x u) :=
  hu.after (by intro b; cases b <;> first | exact .inl (by decide) | exact .inr (Eq.refl _)) hl

/-- What `setSending` can change. -/
theorem setSending_only {x : Option Sending} {l : List Part} {s u : State} (hu : Only l s u)
    (hl : Within [.sending] l := by decide) : Only l s (setSending x u) :=
  hu.after (by intro b; cases b <;> first | exact .inl (by decide) | exact .inr (Eq.refl _)) hl

/-- What `setAlarms` can change. -/
theorem setAlarms_only {x : BitVec 9} {l : List Part} {s u : State} (hu : Only l s u)
    (hl : Within [.alarms] l := by decide) : Only l s (setAlarms x u) :=
  hu.after (by intro b; cases b <;> first | exact .inl (by decide) | exact .inr (Eq.refl _)) hl

/-- What `setWindow` can change. -/
theorem setWindow_only {w : TableWindow} {l : List Part} {s u : State} (hu : Only l s u)
    (hl : Within [.window] l := by decide) : Only l s (setWindow w u) :=
  hu.after (by intro b; cases b <;> first | exact .inl (by decide) | exact .inr (Eq.refl _)) hl

/-- What `setService` can change. -/
theorem setService_only {v : Service} {l : List Part} {s u : State} (hu : Only l s u)
    (hl : Within [.service] l := by decide) : Only l s (setService v u) :=
  hu.after (by intro b; cases b <;> first | exact .inl (by decide) | exact .inr (Eq.refl _)) hl

/-- What `setStillness` can change. -/
theorem setStillness_only {v : Stillness} {l : List Part} {s u : State} (hu : Only l s u)
    (hl : Within [.stillness] l := by decide) : Only l s (setStillness v u) :=
  hu.after (by intro b; cases b <;> first | exact .inl (by decide) | exact .inr (Eq.refl _)) hl

/-- What `setTemp` can change. -/
theorem setTemp_only {t : Fin 4} {r : StrandTemp} {l : List Part} {s u : State} (hu : Only l s u)
    (hl : Within [.temps] l := by decide) : Only l s (setTemp t r u) :=
  hu.after (by intro b; cases b <;> first | exact .inl (by decide) | exact .inr (Eq.refl _)) hl

/-- What `modLine` can change. -/
theorem modLine_only {x : EventLine} {f : LineFilter → LineFilter} {l : List Part} {s u : State}
    (hu : Only l s u) (hl : Within [.lines] l := by decide) : Only l s (modLine x f u) :=
  hu.after (by intro b; cases b <;> first | exact .inl (by decide) | exact .inr (Eq.refl _)) hl

/-- What `setCounters` can change. -/
theorem setCounters_only {c : Counters} {l : List Part} {s u : State} (hu : Only l s u)
    (hl : Within [.counters] l := by decide) : Only l s (setCounters c u) :=
  hu.after (by intro b; cases b <;> first | exact .inl (by decide) | exact .inr (Eq.refl _)) hl

/-- What `setEvaluator` can change. -/
theorem setEvaluator_only {v : Evaluator} {l : List Part} {s u : State} (hu : Only l s u)
    (hl : Within [.gev] l := by decide) : Only l s (setEvaluator v u) :=
  hu.after (by intro b; cases b <;> first | exact .inl (by decide) | exact .inr (Eq.refl _)) hl

/-- What `setMarks` can change. -/
theorem setMarks_only {x : List PendingMark} {l : List Part} {s u : State} (hu : Only l s u)
    (hl : Within [.marks] l := by decide) : Only l s (setMarks x u) :=
  hu.after (by intro b; cases b <;> first | exact .inl (by decide) | exact .inr (Eq.refl _)) hl

/-- What `setLog` can change. -/
theorem setLog_only {x : List LogEntry} {l : List Part} {s u : State} (hu : Only l s u)
    (hl : Within [.log] l := by decide) : Only l s (setLog x u) :=
  hu.after (by intro b; cases b <;> first | exact .inl (by decide) | exact .inr (Eq.refl _)) hl

/-- What `setPins` can change. -/
theorem setPins_only {x : Pins} {l : List Part} {s u : State} (hu : Only l s u)
    (hl : Within [.pins] l := by decide) : Only l s (setPins x u) :=
  hu.after (by intro b; cases b <;> first | exact .inl (by decide) | exact .inr (Eq.refl _)) hl

/-- What `setPhase` can change. -/
theorem setPhase_only {x : Levels} {l : List Part} {s u : State} (hu : Only l s u)
    (hl : Within [.phase] l := by decide) : Only l s (setPhase x u) :=
  hu.after (by intro b; cases b <;> first | exact .inl (by decide) | exact .inr (Eq.refl _)) hl

/-- What `count` can change. -/
theorem count_only {f : Counters → Counters} {l : List Part} {s u : State} (hu : Only l s u)
    (hl : Within [.counters] l := by decide) : Only l s (count f u) :=
  hu.after (by unfold count <;> split <;> (intro b; cases b <;> first | exact .inl (by decide) |
    exact .inr (Eq.refl _))) hl

/-- What `countPort` can change. -/
theorem countPort_only {i : Fin 9} {c : PortCounter} {l : List Part} {s u : State} (hu : Only l s u)
    (hl : Within [.counters] l := by decide) : Only l s (countPort i c u) :=
  hu.after (by
    unfold countPort
    repeat (first
      | with_reducible exact Only.rfl | with_reducible refine count_only ?_
      | with_reducible refine Only.fold (fun _ _ _ => ?_) ?_ | with_reducible assumption | split
      | (intro b; cases b <;> first | exact .inl (by decide) | exact .inr (Eq.refl _))
      | dsimp only)) hl

/-- What `countHead` can change. -/
theorem countHead_only {i : Fin 16} {c : HeadCounter} {l : List Part} {s u : State}
    (hu : Only l s u) (hl : Within [.counters] l := by decide) : Only l s (countHead i c u) :=
  hu.after (by
    unfold countHead
    repeat (first
      | with_reducible exact Only.rfl | with_reducible refine count_only ?_
      | with_reducible refine Only.fold (fun _ _ _ => ?_) ?_ | with_reducible assumption | split
      | (intro b; cases b <;> first | exact .inl (by decide) | exact .inr (Eq.refl _))
      | dsimp only)) hl

/-- What `countStrand` can change. -/
theorem countStrand_only {i : Fin 4} {c : StrandCounter} {l : List Part} {s u : State}
    (hu : Only l s u) (hl : Within [.counters] l := by decide) : Only l s (countStrand i c u) :=
  hu.after (by
    unfold countStrand
    repeat (first
      | with_reducible exact Only.rfl | with_reducible refine count_only ?_
      | with_reducible refine Only.fold (fun _ _ _ => ?_) ?_ | with_reducible assumption | split
      | (intro b; cases b <;> first | exact .inl (by decide) | exact .inr (Eq.refl _))
      | dsimp only)) hl

/-- What `countGlobalBy` can change. -/
theorem countGlobalBy_only {c : GlobalCounter} {n : Nat} {l : List Part} {s u : State}
    (hu : Only l s u) (hl : Within [.counters] l := by decide) : Only l s (countGlobalBy c n u) :=
  hu.after (by
    unfold countGlobalBy
    repeat (first
      | with_reducible exact Only.rfl | with_reducible refine count_only ?_
      | with_reducible refine Only.fold (fun _ _ _ => ?_) ?_ | with_reducible assumption | split
      | (intro b; cases b <;> first | exact .inl (by decide) | exact .inr (Eq.refl _))
      | dsimp only)) hl

/-- What `countGlobal` can change. -/
theorem countGlobal_only {c : GlobalCounter} {l : List Part} {s u : State} (hu : Only l s u)
    (hl : Within [.counters] l := by decide) : Only l s (countGlobal c u) :=
  hu.after (by
    unfold countGlobal
    repeat (first
      | with_reducible exact Only.rfl | with_reducible refine countGlobalBy_only ?_
      | with_reducible refine Only.fold (fun _ _ _ => ?_) ?_ | with_reducible assumption | split
      | (intro b; cases b <;> first | exact .inl (by decide) | exact .inr (Eq.refl _))
      | dsimp only)) hl

/-- What `offerAlarm` can change. -/
theorem offerAlarm_only {r : AlarmReport} {l : List Part} {s u : State} (hu : Only l s u)
    (hl : Within [.queueA, .counters] l := by decide) : Only l s (offerAlarm r u) :=
  hu.after (by
    unfold offerAlarm
    repeat (first
      | with_reducible exact Only.rfl | with_reducible refine countGlobal_only ?_
      | with_reducible refine Only.fold (fun _ _ _ => ?_) ?_ | with_reducible assumption | split
      | (intro b; cases b <;> first | exact .inl (by decide) | exact .inr (Eq.refl _))
      | dsimp only)) hl

/-- What `clearAlarm` can change. -/
theorem clearAlarm_only {k : AlarmKind} {l : List Part} {s u : State} (hu : Only l s u)
    (hl : Within [.alarms] l := by decide) : Only l s (clearAlarm k u) :=
  hu.after (by
    unfold clearAlarm
    repeat (first
      | with_reducible exact Only.rfl | with_reducible refine setAlarms_only ?_
      | with_reducible refine Only.fold (fun _ _ _ => ?_) ?_ | with_reducible assumption | split
      | (intro b; cases b <;> first | exact .inl (by decide) | exact .inr (Eq.refl _))
      | dsimp only)) hl

/-- What `raiseAlarm` can change. -/
theorem raiseAlarm_only {k : AlarmKind} {n : Nat} {l : List Part} {s u : State} (hu : Only l s u)
    (hl : Within [.alarms, .queueA, .counters] l := by decide) : Only l s (raiseAlarm k n u) :=
  hu.after (by
    unfold raiseAlarm
    repeat (first
      | with_reducible exact Only.rfl | with_reducible refine clearAlarm_only ?_
      | with_reducible refine offerAlarm_only ?_ | with_reducible refine setAlarms_only ?_
      | with_reducible refine Only.fold (fun _ _ _ => ?_) ?_ | with_reducible assumption | split
      | (intro b; cases b <;> first | exact .inl (by decide) | exact .inr (Eq.refl _))
      | dsimp only)) hl

/-- What a change of one port that keeps its reserve can change. -/
theorem modPort_kept {p : Fin 8} {f : Port → Port} {l : List Part} {s u : State} (hu : Only l s u)
    (hf : ∀ x, (f x).reserve = x.reserve) (hl : Within [.ports] l := by decide) :
    Only l s (u.modPort p f) :=
  hu.after (by
    intro b
    cases b with
    | reserves =>
      refine .inr (congrArg Vector.ofFn (funext fun q => ?_))
      show ((upd u.ports p f)[q]).reserve = _
      rw [upd_get]
      split
      · subst_vars; exact hf _
      · rfl
    | _ => first | exact .inl (by decide) | exact .inr (Eq.refl _)) hl

/-- A notice raised keeps the reserve. -/
theorem raise_reserve (n : Notice) (x : Port) : (x.raise n).reserve = x.reserve := by
  unfold Port.raise
  repeat (first | rfl | split)

/-- The flow-control check keeps the reserve. -/
theorem flowCheck_reserve (n : Nat) (x : Port) : (x.flowCheck n).reserve = x.reserve := by
  unfold Port.flowCheck
  repeat (first | rfl | exact raise_reserve _ _ | split)

/-- What `flowControlCheck` can change. -/
theorem flowControlCheck_only {p : Fin 8} {l : List Part} {s u : State} (hu : Only l s u)
    (hl : Within [.ports] l := by decide) : Only l s (flowControlCheck p u) :=
  hu.after (by
      exact modPort_kept Only.rfl (flowCheck_reserve _)) hl

/-- What `evictOldest` can change. -/
theorem evictOldest_only {l : List Part} {s u : State} (hu : Only l s u) (hl : Within [.held,
    .ports, .counters] l := by decide) : Only l s (evictOldest u) :=
  hu.after (by
    unfold evictOldest
    repeat (first
      | with_reducible exact Only.rfl | with_reducible refine countPort_only ?_
      | with_reducible refine flowControlCheck_only ?_ | with_reducible refine setHeld_only ?_
      | with_reducible refine Only.fold (fun _ _ _ => ?_) ?_ | with_reducible assumption | split
      | (intro b; cases b <;> first | exact .inl (by decide) | exact .inr (Eq.refl _))
      | dsimp only)) hl

/-- What `evictLoop` can change. -/
theorem evictLoop_only {n : Nat} {l : List Part} {s u : State} (hu : Only l s u)
    (hl : Within [.held, .ports, .counters] l := by decide) : Only l s (evictLoop n u) :=
  hu.after (by
    clear hu
    induction n generalizing u with
    | zero => exact Only.rfl
    | succ n ih =>
      unfold evictLoop
      split
      · exact (evictOldest_only Only.rfl).trans ih
      · exact Only.rfl) hl

/-- What `evictionCheck` can change. -/
theorem evictionCheck_only {l : List Part} {s u : State} (hu : Only l s u) (hl : Within [.held,
    .ports, .counters] l := by decide) : Only l s (evictionCheck u) :=
  hu.after (by
    unfold evictionCheck
    repeat (first
      | with_reducible exact Only.rfl | with_reducible refine evictLoop_only ?_
      | with_reducible refine Only.fold (fun _ _ _ => ?_) ?_ | with_reducible assumption | split
      | (intro b; cases b <;> first | exact .inl (by decide) | exact .inr (Eq.refl _))
      | dsimp only)) hl

/-- What `poolChecks` can change. -/
theorem poolChecks_only {p : Fin 8} {l : List Part} {s u : State} (hu : Only l s u)
    (hl : Within [.held, .ports, .counters] l := by decide) : Only l s (poolChecks p u) :=
  hu.after (by
    unfold poolChecks
    repeat (first
      | with_reducible exact Only.rfl | with_reducible refine evictionCheck_only ?_
      | with_reducible refine flowControlCheck_only ?_
      | with_reducible refine Only.fold (fun _ _ _ => ?_) ?_ | with_reducible assumption | split
      | (intro b; cases b <;> first | exact .inl (by decide) | exact .inr (Eq.refl _))
      | dsimp only)) hl

/-- What `releaseFirst` can change. -/
theorem releaseFirst_only {p : HeldFrame → Bool} {f : HeldFrame → HeldFrame} {l : List Part} {s u :
    State} (hu : Only l s u) (hl : Within [.held, .ports, .counters] l := by decide) : Only l s
    (releaseFirst p f u) :=
  hu.after (by
    unfold releaseFirst
    repeat (first
      | with_reducible exact Only.rfl | with_reducible refine poolChecks_only ?_
      | with_reducible refine setHeld_only ?_ | with_reducible refine Only.fold (fun _ _ _ => ?_) ?_
      | with_reducible assumption | split
      | (intro b; cases b <;> first | exact .inl (by decide) | exact .inr (Eq.refl _))
      | dsimp only)) hl

/-- What `startNotice` can change. -/
theorem startNotice_only {p : Fin 8} {l : List Part} {s u : State} (hu : Only l s u)
    (hl : Within [.ports, .counters] l := by decide) : Only l s (startNotice p u) :=
  hu.after (by
    unfold startNotice
    repeat (first
      | with_reducible exact Only.rfl | with_reducible refine countPort_only ?_
      | with_reducible refine Only.fold (fun _ _ _ => ?_) ?_ | with_reducible assumption
      | with_reducible refine modPort_kept ?_ (fun _ => Eq.refl _) | split
      | (intro b; cases b <;> first | exact .inl (by decide) | exact .inr (Eq.refl _))
      | dsimp only)) hl

/-- What `backlogClearTest` can change. -/
theorem backlogClearTest_only {l : List Part} {s u : State} (hu : Only l s u)
    (hl : Within [.alarms] l := by decide) : Only l s (backlogClearTest u) :=
  hu.after (by
    unfold backlogClearTest
    repeat (first
      | with_reducible exact Only.rfl | with_reducible refine clearAlarm_only ?_
      | with_reducible refine Only.fold (fun _ _ _ => ?_) ?_ | with_reducible assumption | split
      | (intro b; cases b <;> first | exact .inl (by decide) | exact .inr (Eq.refl _))
      | dsimp only)) hl

/-- What `queuePieceReports` can change. -/
theorem queuePieceReports_only {l : List Part} {s u : State} (hu : Only l s u) (hl : Within [.log,
    .queueB, .alarms] l := by decide) : Only l s (queuePieceReports u) :=
  hu.after (by
    unfold queuePieceReports
    repeat (first
      | with_reducible exact Only.rfl | with_reducible refine backlogClearTest_only ?_
      | with_reducible refine Only.fold (fun _ _ _ => ?_) ?_ | with_reducible assumption | split
      | (intro b; cases b <;> first | exact .inl (by decide) | exact .inr (Eq.refl _))
      | dsimp only)) hl

/-- What `backlogRaiseTest` can change. -/
theorem backlogRaiseTest_only {l : List Part} {s u : State} (hu : Only l s u) (hl : Within [.alarms,
    .queueA, .counters] l := by decide) : Only l s (backlogRaiseTest u) :=
  hu.after (by
    unfold backlogRaiseTest
    repeat (first
      | with_reducible exact Only.rfl | with_reducible refine raiseAlarm_only ?_
      | with_reducible refine Only.fold (fun _ _ _ => ?_) ?_ | with_reducible assumption | split
      | (intro b; cases b <;> first | exact .inl (by decide) | exact .inr (Eq.refl _))
      | dsimp only)) hl

/-- What `makeLogRoom` can change. -/
theorem makeLogRoom_only {t : Fin 4} {l : List Part} {s u : State} (hu : Only l s u)
    (hl : Within [.log, .alarms, .queueA, .counters] l := by decide) : Only l s (makeLogRoom t u) :=
  hu.after (by
    unfold makeLogRoom
    repeat (first
      | with_reducible exact Only.rfl | with_reducible refine setLog_only ?_
      | with_reducible refine backlogClearTest_only ?_ | with_reducible refine raiseAlarm_only ?_
      | with_reducible refine countStrand_only ?_
      | with_reducible refine Only.fold (fun _ _ _ => ?_) ?_ | with_reducible assumption | split
      | (intro b; cases b <;> first | exact .inl (by decide) | exact .inr (Eq.refl _))
      | dsimp only)) hl

/-- What `logPiece` can change. -/
theorem logPiece_only {c : CompletedPiece} {l : List Part} {s u : State} (hu : Only l s u)
    (hl : Within [.log, .alarms, .queueA, .queueB, .counters] l := by decide) : Only l s (logPiece c
    u) :=
  hu.after (by
    unfold logPiece
    repeat (first
      | with_reducible exact Only.rfl | with_reducible refine setLog_only ?_
      | with_reducible refine backlogRaiseTest_only ?_
      | with_reducible refine queuePieceReports_only ?_ | with_reducible refine makeLogRoom_only ?_
      | with_reducible refine Only.fold (fun _ _ _ => ?_) ?_ | with_reducible assumption | split
      | (intro b; cases b <;> first | exact .inl (by decide) | exact .inr (Eq.refl _))
      | dsimp only)) hl

/-- What `assertGate` can change. -/
theorem assertGate_only {t : Fin 4} {l : List Part} {s u : State} (hu : Only l s u)
    (hl : Within [.pieces] l := by decide) : Only l s (assertGate t u) :=
  hu.after (by
    unfold assertGate
    repeat (first
      | with_reducible exact Only.rfl | with_reducible refine modPieces_only ?_
      | with_reducible refine Only.fold (fun _ _ _ => ?_) ?_ | with_reducible assumption | split
      | (intro b; cases b <;> first | exact .inl (by decide) | exact .inr (Eq.refl _))
      | dsimp only)) hl

/-- What `completePiece` can change. -/
theorem completePiece_only {t : Fin 4} {v : PieceVerdict} {p : Piece} {l : List Part} {s u : State}
    (hu : Only l s u) (hl : Within pieceParts l := by decide) : Only l s (completePiece t v p u) :=
  hu.after (by
    unfold completePiece
    repeat (first
      | with_reducible exact Only.rfl | with_reducible refine assertGate_only ?_
      | with_reducible refine logPiece_only ?_ | with_reducible refine countStrand_only ?_
      | with_reducible refine modPieces_only ?_
      | with_reducible refine Only.fold (fun _ _ _ => ?_) ?_ | with_reducible assumption | split
      | (intro b; cases b <;> first | exact .inl (by decide) | exact .inr (Eq.refl _))
      | dsimp only)) hl

/-- What `foldCell` can change. -/
theorem foldCell_only {t : Fin 4} {n : Word32} {r : CellResult} {l : List Part} {s u : State}
    (hu : Only l s u) (hl : Within pieceParts l := by decide) : Only l s (foldCell t n r u) :=
  hu.after (by
    unfold foldCell
    repeat (first
      | with_reducible exact Only.rfl | with_reducible refine completePiece_only ?_
      | with_reducible refine modPieces_only ?_
      | with_reducible refine Only.fold (fun _ _ _ => ?_) ?_ | with_reducible assumption | split
      | (intro b; cases b <;> first | exact .inl (by decide) | exact .inr (Eq.refl _))
      | dsimp only)) hl

/-- What `cutStrand` can change. -/
theorem cutStrand_only {n : Word32} {t : Fin 4} {l : List Part} {s u : State} (hu : Only l s u)
    (hl : Within [.pieces] l := by decide) : Only l s (cutStrand n t u) :=
  hu.after (by
    unfold cutStrand
    repeat (first
      | with_reducible exact Only.rfl | with_reducible refine modPieces_only ?_
      | with_reducible refine Only.fold (fun _ _ _ => ?_) ?_ | with_reducible assumption | split
      | (intro b; cases b <;> first | exact .inl (by decide) | exact .inr (Eq.refl _))
      | dsimp only)) hl

/-- What `takeCut` can change. -/
theorem takeCut_only {m : Nat} {l : List Part} {s u : State} (hu : Only l s u)
    (hl : Within [.pieces, .counters, .alarms, .queueA] l := by decide) : Only l s (takeCut m u) :=
  hu.after (by
    unfold takeCut
    repeat (first
      | with_reducible exact Only.rfl | with_reducible refine raiseAlarm_only ?_
      | with_reducible refine countGlobal_only ?_ | with_reducible refine cutStrand_only ?_
      | with_reducible refine Only.fold (fun _ _ _ => ?_) ?_ | with_reducible assumption | split
      | (intro b; cases b <;> first | exact .inl (by decide) | exact .inr (Eq.refl _))
      | dsimp only)) hl

/-- What `abortStrand` can change. -/
theorem abortStrand_only {t : Fin 4} {l : List Part} {s u : State} (hu : Only l s u)
    (hl : Within pieceParts l := by decide) : Only l s (abortStrand t u) :=
  hu.after (by
    unfold abortStrand
    repeat (first
      | with_reducible exact Only.rfl | with_reducible refine completePiece_only ?_
      | with_reducible refine modPieces_only ?_
      | with_reducible refine Only.fold (fun _ _ _ => ?_) ?_ | with_reducible assumption | split
      | (intro b; cases b <;> first | exact .inl (by decide) | exact .inr (Eq.refl _))
      | dsimp only)) hl

/-- What `flushPieces` can change. -/
theorem flushPieces_only {l : List Part} {s u : State} (hu : Only l s u)
    (hl : Within pieceParts l := by decide) : Only l s (flushPieces u) :=
  hu.after (by
    unfold flushPieces
    repeat (first
      | with_reducible exact Only.rfl | with_reducible refine abortStrand_only ?_
      | with_reducible refine modPieces_only ?_
      | with_reducible refine Only.fold (fun _ _ _ => ?_) ?_ | with_reducible assumption | split
      | (intro b; cases b <;> first | exact .inl (by decide) | exact .inr (Eq.refl _))
      | dsimp only)) hl

/-- What `releaseGate` can change. -/
theorem releaseGate_only {t : Fin 4} {l : List Part} {s u : State} (hu : Only l s u)
    (hl : Within [.pieces] l := by decide) : Only l s (releaseGate t u) :=
  hu.after (by
    unfold releaseGate
    repeat (first
      | with_reducible exact Only.rfl | with_reducible refine modPieces_only ?_
      | with_reducible refine Only.fold (fun _ _ _ => ?_) ?_ | with_reducible assumption | split
      | (intro b; cases b <;> first | exact .inl (by decide) | exact .inr (Eq.refl _))
      | dsimp only)) hl

/-- What `offerMark` can change. -/
theorem offerMark_only {n : Word32} {k : MarkKind} {c : Consequence} {t : Fin 4} {l : List Part} {s
    u : State} (hu : Only l s u) (hl : Within [.rings] l := by decide) : Only l s (offerMark n k c t
    u) :=
  hu.after (by
    unfold offerMark
    repeat (first
      | with_reducible exact Only.rfl | with_reducible refine modRing_only ?_
      | with_reducible refine Only.fold (fun _ _ _ => ?_) ?_ | with_reducible assumption | split
      | (intro b; cases b <;> first | exact .inl (by decide) | exact .inr (Eq.refl _))
      | dsimp only)) hl

/-- What `offerPending` can change. -/
theorem offerPending_only {n : Word32} {l : List Part} {s u : State} (hu : Only l s u)
    (hl : Within [.rings, .marks] l := by decide) : Only l s (offerPending n u) :=
  hu.after (by
    unfold offerPending
    repeat (first
      | with_reducible exact Only.rfl | with_reducible refine setMarks_only ?_
      | with_reducible refine offerMark_only ?_
      | with_reducible refine Only.fold (fun _ _ _ => ?_) ?_ | with_reducible assumption | split
      | (intro b; cases b <;> first | exact .inl (by decide) | exact .inr (Eq.refl _))
      | dsimp only)) hl

/-- What `offerProof` can change. -/
theorem offerProof_only {n : Word32} {l : List Part} {s u : State} (hu : Only l s u)
    (hl : Within [.rings] l := by decide) : Only l s (offerProof n u) :=
  hu.after (by
    unfold offerProof
    repeat (first
      | with_reducible exact Only.rfl | with_reducible refine modRing_only ?_
      | with_reducible refine Only.fold (fun _ _ _ => ?_) ?_ | with_reducible assumption | split
      | (intro b; cases b <;> first | exact .inl (by decide) | exact .inr (Eq.refl _))
      | dsimp only)) hl

/-- What `recycleIn` can change. -/
theorem recycleIn_only {n : Word32} {t : Fin 4} {l : List Part} {s u : State} (hu : Only l s u)
    (hl : Within [.rings] l := by decide) : Only l s (recycleIn n t u) :=
  hu.after (by
    unfold recycleIn
    repeat (first
      | with_reducible exact Only.rfl | with_reducible refine modRing_only ?_
      | with_reducible refine Only.fold (fun _ _ _ => ?_) ?_ | with_reducible assumption | split
      | (intro b; cases b <;> first | exact .inl (by decide) | exact .inr (Eq.refl _))
      | dsimp only)) hl

/-- What `recycleCell` can change. -/
theorem recycleCell_only {n : Word32} {l : List Part} {s u : State} (hu : Only l s u)
    (hl : Within [.rings, .marks] l := by decide) : Only l s (recycleCell n u) :=
  hu.after (by
    unfold recycleCell
    repeat (first
      | with_reducible exact Only.rfl | with_reducible refine offerProof_only ?_
      | with_reducible refine offerPending_only ?_ | with_reducible refine recycleIn_only ?_
      | with_reducible refine Only.fold (fun _ _ _ => ?_) ?_ | with_reducible assumption | split
      | (intro b; cases b <;> first | exact .inl (by decide) | exact .inr (Eq.refl _))
      | dsimp only)) hl

/-- What `enterCell` can change. -/
theorem enterCell_only {n : Word32} {l : List Part} {s u : State} (hu : Only l s u)
    (hl : Within [.rings] l := by decide) : Only l s (enterCell n u) :=
  hu.after (by
    unfold enterCell
    repeat (first
      | with_reducible exact Only.rfl | with_reducible refine modRing_only ?_
      | with_reducible refine Only.fold (fun _ _ _ => ?_) ?_ | with_reducible assumption | split
      | (intro b; cases b <;> first | exact .inl (by decide) | exact .inr (Eq.refl _))
      | dsimp only)) hl

/-- What `closeCell` can change. -/
theorem closeCell_only {n : Word32} {t : Fin 4} {l : List Part} {s u : State} (hu : Only l s u)
    (hl : Within ([.rings] ++ pieceParts) l := by decide) : Only l s (closeCell n t u) :=
  hu.after (by
    unfold closeCell
    repeat (first
      | with_reducible exact Only.rfl | with_reducible refine foldCell_only ?_
      | with_reducible refine countStrand_only ?_ | with_reducible refine modRing_only ?_
      | with_reducible refine Only.fold (fun _ _ _ => ?_) ?_ | with_reducible assumption | split
      | (intro b; cases b <;> first | exact .inl (by decide) | exact .inr (Eq.refl _))
      | dsimp only)) hl

/-- What `crossCell` can change. -/
theorem crossCell_only {n : Word32} {l : List Part} {s u : State} (hu : Only l s u)
    (hl : Within ([.rings] ++ pieceParts) l := by decide) : Only l s (crossCell n u) :=
  hu.after (by
    unfold crossCell
    repeat (first
      | with_reducible exact Only.rfl | with_reducible refine closeCell_only ?_
      | with_reducible refine Only.fold (fun _ _ _ => ?_) ?_ | with_reducible assumption | split
      | (intro b; cases b <;> first | exact .inl (by decide) | exact .inr (Eq.refl _))
      | dsimp only)) hl

/-- What `advanceMap` can change. -/
theorem advanceMap_only {m n : Nat} {l : List Part} {s u : State} (hu : Only l s u)
    (hl : Within mapParts l := by decide) : Only l s (advanceMap m n u) :=
  hu.after (by
    unfold advanceMap
    repeat (first
      | with_reducible exact Only.rfl | with_reducible refine crossCell_only ?_
      | with_reducible refine enterCell_only ?_ | with_reducible refine recycleCell_only ?_
      | with_reducible refine Only.fold (fun _ _ _ => ?_) ?_ | with_reducible assumption | split
      | (intro b; cases b <;> first | exact .inl (by decide) | exact .inr (Eq.refl _))
      | dsimp only)) hl

/-- What `flushRings` can change. -/
theorem flushRings_only {l : List Part} {s u : State} (hu : Only l s u) (hl : Within [.rings,
    .geometry] l := by decide) : Only l s (flushRings u) :=
  hu.after (by
    unfold flushRings
    repeat (first
      | with_reducible exact Only.rfl | with_reducible refine modRing_only ?_
      | with_reducible refine Only.fold (fun _ _ _ => ?_) ?_ | with_reducible assumption | split
      | (intro b; cases b <;> first | exact .inl (by decide) | exact .inr (Eq.refl _))
      | dsimp only)) hl

/-- What `staleClearTest` can change. -/
theorem staleClearTest_only {l : List Part} {s u : State} (hu : Only l s u)
    (hl : Within [.alarms] l := by decide) : Only l s (staleClearTest u) :=
  hu.after (by
    unfold staleClearTest
    repeat (first
      | with_reducible exact Only.rfl | with_reducible refine clearAlarm_only ?_
      | with_reducible refine Only.fold (fun _ _ _ => ?_) ?_ | with_reducible assumption | split
      | (intro b; cases b <;> first | exact .inl (by decide) | exact .inr (Eq.refl _))
      | dsimp only)) hl

/-- What `takeReading` can change. -/
theorem takeReading_only {p : Fin 8} {r : Reading} {l : List Part} {s u : State} (hu : Only l s u)
    (hl : Within [.temps, .alarms, .counters] l := by decide) : Only l s (takeReading p r u) :=
  hu.after (by
    unfold takeReading
    repeat (first
      | with_reducible exact Only.rfl | with_reducible refine staleClearTest_only ?_
      | with_reducible refine setTemp_only ?_ | with_reducible refine countPort_only ?_
      | with_reducible refine Only.fold (fun _ _ _ => ?_) ?_ | with_reducible assumption | split
      | (intro b; cases b <;> first | exact .inl (by decide) | exact .inr (Eq.refl _))
      | dsimp only)) hl

/-- What `takeTemp` can change. -/
theorem takeTemp_only {l : List Part} {s u : State} (hu : Only l s u) (hl : Within [.temps, .alarms,
    .counters, .held, .ports] l := by decide) : Only l s (takeTemp u) :=
  hu.after (by
    unfold takeTemp
    repeat (first
      | with_reducible exact Only.rfl | with_reducible refine releaseFirst_only ?_
      | with_reducible refine takeReading_only ?_
      | with_reducible refine Only.fold (fun _ _ _ => ?_) ?_ | with_reducible assumption | split
      | (intro b; cases b <;> first | exact .inl (by decide) | exact .inr (Eq.refl _))
      | dsimp only)) hl

/-- What `expireTemp` can change. -/
theorem expireTemp_only {t : Fin 4} {l : List Part} {s u : State} (hu : Only l s u)
    (hl : Within [.temps, .alarms, .queueA, .counters] l := by decide) : Only l s (expireTemp t u)
    :=
  hu.after (by
    unfold expireTemp
    repeat (first
      | with_reducible exact Only.rfl | with_reducible refine raiseAlarm_only ?_
      | with_reducible refine setTemp_only ?_ | with_reducible refine Only.fold (fun _ _ _ => ?_) ?_
      | with_reducible assumption | split
      | (intro b; cases b <;> first | exact .inl (by decide) | exact .inr (Eq.refl _))
      | dsimp only)) hl

/-- What `forgetTemps` can change. -/
theorem forgetTemps_only {l : List Part} {s u : State} (hu : Only l s u) (hl : Within [.temps,
    .alarms] l := by decide) : Only l s (forgetTemps u) :=
  hu.after (by
    unfold forgetTemps
    repeat (first
      | with_reducible exact Only.rfl | with_reducible refine staleClearTest_only ?_
      | with_reducible refine Only.fold (fun _ _ _ => ?_) ?_ | with_reducible assumption | split
      | (intro b; cases b <;> first | exact .inl (by decide) | exact .inr (Eq.refl _))
      | dsimp only)) hl

/-- What `takeCurves` can change. -/
theorem takeCurves_only {l : List Part} {s u : State} (hu : Only l s u)
    (hl : Within [.curves] l := by decide) : Only l s (takeCurves u) :=
  hu.after (by
    unfold takeCurves
    repeat (first
      | with_reducible exact Only.rfl | with_reducible refine Only.fold (fun _ _ _ => ?_) ?_
      | with_reducible assumption | split
      | (intro b; cases b <;> first | exact .inl (by decide) | exact .inr (Eq.refl _))
      | dsimp only)) hl

/-- What `addVoid` can change. -/
theorem addVoid_only {q : BitVec 16} {l : List Part} {s u : State} (hu : Only l s u)
    (hl : Within [.voids] l := by decide) : Only l s (addVoid q u) :=
  hu.after (by
    unfold addVoid
    repeat (first
      | with_reducible exact Only.rfl | with_reducible refine Only.fold (fun _ _ _ => ?_) ?_
      | with_reducible assumption | split
      | (intro b; cases b <;> first | exact .inl (by decide) | exact .inr (Eq.refl _))
      | dsimp only)) hl

/-- What `takeSlot` can change. -/
theorem takeSlot_only {l : List Part} {s u : State} (hu : Only l s u) (hl : Within [.slots,
    .gev] l := by decide) : Only l s (takeSlot u) :=
  hu.after (by
    unfold takeSlot
    repeat (first
      | with_reducible exact Only.rfl | with_reducible refine modSlot_only ?_
      | with_reducible refine Only.fold (fun _ _ _ => ?_) ?_ | with_reducible assumption | split
      | (intro b; cases b <;> first | exact .inl (by decide) | exact .inr (Eq.refl _))
      | dsimp only)) hl

/-- What `fencedClearTest` can change. -/
theorem fencedClearTest_only {l : List Part} {s u : State} (hu : Only l s u)
    (hl : Within [.alarms] l := by decide) : Only l s (fencedClearTest u) :=
  hu.after (by
    unfold fencedClearTest
    repeat (first
      | with_reducible exact Only.rfl | with_reducible refine clearAlarm_only ?_
      | with_reducible refine Only.fold (fun _ _ _ => ?_) ?_ | with_reducible assumption | split
      | (intro b; cases b <;> first | exact .inl (by decide) | exact .inr (Eq.refl _))
      | dsimp only)) hl

/-- What `releaseIn` can change. -/
theorem releaseIn_only {h j : Fin 16} {l : List Part} {s u : State} (hu : Only l s u)
    (hl : Within [.slots] l := by decide) : Only l s (releaseIn h j u) :=
  hu.after (by
    unfold releaseIn
    repeat (first
      | with_reducible exact Only.rfl | with_reducible refine modSlot_only ?_
      | with_reducible refine Only.fold (fun _ _ _ => ?_) ?_ | with_reducible assumption | split
      | (intro b; cases b <;> first | exact .inl (by decide) | exact .inr (Eq.refl _))
      | dsimp only)) hl

/-- What `fenceHead` can change. -/
theorem fenceHead_only {i h : Fin 16} {l : List Part} {s u : State} (hu : Only l s u)
    (hl : Within [.heads, .alarms, .queueA, .counters, .slots] l := by decide) : Only l s (fenceHead
    i h u) :=
  hu.after (by
    unfold fenceHead
    repeat (first
      | with_reducible exact Only.rfl | with_reducible refine releaseIn_only ?_
      | with_reducible refine raiseAlarm_only ?_ | with_reducible refine countHead_only ?_
      | with_reducible refine modHead_only ?_ | with_reducible refine Only.fold (fun _ _ _ => ?_) ?_
      | with_reducible assumption | split
      | (intro b; cases b <;> first | exact .inl (by decide) | exact .inr (Eq.refl _))
      | dsimp only)) hl

/-- What `restoreHead` can change. -/
theorem restoreHead_only {h : Fin 16} {l : List Part} {s u : State} (hu : Only l s u)
    (hl : Within [.heads, .alarms, .queueA, .counters] l := by decide) : Only l s (restoreHead h u)
    :=
  hu.after (by
    unfold restoreHead
    repeat (first
      | with_reducible exact Only.rfl | with_reducible refine raiseAlarm_only ?_
      | with_reducible refine fencedClearTest_only ?_ | with_reducible refine modHead_only ?_
      | with_reducible refine Only.fold (fun _ _ _ => ?_) ?_ | with_reducible assumption | split
      | (intro b; cases b <;> first | exact .inl (by decide) | exact .inr (Eq.refl _))
      | dsimp only)) hl

/-- What `updateMiss` can change. -/
theorem updateMiss_only {i h : Fin 16} {c : Bool} {l : List Part} {s u : State} (hu : Only l s u)
    (hl : Within [.heads, .alarms, .queueA, .counters, .slots] l := by decide) : Only l s
    (updateMiss i h c u) :=
  hu.after (by
    unfold updateMiss
    repeat (first
      | with_reducible exact Only.rfl | with_reducible refine fenceHead_only ?_
      | with_reducible refine countHead_only ?_ | with_reducible refine modHead_only ?_
      | with_reducible refine Only.fold (fun _ _ _ => ?_) ?_ | with_reducible assumption | split
      | (intro b; cases b <;> first | exact .inl (by decide) | exact .inr (Eq.refl _))
      | dsimp only)) hl

/-- What `updateRestore` can change. -/
theorem updateRestore_only {h : Fin 16} {c : Bool} {l : List Part} {s u : State} (hu : Only l s u)
    (hl : Within [.heads, .alarms, .queueA, .counters] l := by decide) : Only l s (updateRestore h c
    u) :=
  hu.after (by
    unfold updateRestore
    repeat (first
      | with_reducible exact Only.rfl | with_reducible refine restoreHead_only ?_
      | with_reducible refine modHead_only ?_ | with_reducible refine Only.fold (fun _ _ _ => ?_) ?_
      | with_reducible assumption | split
      | (intro b; cases b <;> first | exact .inl (by decide) | exact .inr (Eq.refl _))
      | dsimp only)) hl

/-- What `updateTimeliness` can change. -/
theorem updateTimeliness_only {i h : Fin 16} {l : List Part} {s u : State} (hu : Only l s u)
    (hl : Within [.heads, .alarms, .queueA, .counters, .slots] l := by decide) : Only l s
    (updateTimeliness i h u) :=
  hu.after (by
    unfold updateTimeliness
    repeat (first
      | with_reducible exact Only.rfl | with_reducible refine updateMiss_only ?_
      | with_reducible refine updateRestore_only ?_
      | with_reducible refine Only.fold (fun _ _ _ => ?_) ?_ | with_reducible assumption | split
      | (intro b; cases b <;> first | exact .inl (by decide) | exact .inr (Eq.refl _))
      | dsimp only)) hl

/-- What `countFilter` can change. -/
theorem countFilter_only {i : Fin 16} {f : Fin 2} {l : List Part} {s u : State} (hu : Only l s u)
    (hl : Within [.counters] l := by decide) : Only l s (countFilter i f u) :=
  hu.after (by
    unfold countFilter
    repeat (first
      | with_reducible exact Only.rfl | with_reducible refine countGlobal_only ?_
      | with_reducible refine Only.fold (fun _ _ _ => ?_) ?_ | with_reducible assumption | split
      | (intro b; cases b <;> first | exact .inl (by decide) | exact .inr (Eq.refl _))
      | dsimp only)) hl

/-- What `closeOne` can change. -/
theorem closeOne_only {i : Fin 16} {l : List Part} {s u : State} (hu : Only l s u)
    (hl : Within slotParts l := by decide) : Only l s (closeOne i u) :=
  hu.after (by
    unfold closeOne
    repeat (first
      | with_reducible exact Only.rfl | with_reducible refine takeSlot_only ?_
      | with_reducible refine setEvaluator_only ?_ | with_reducible refine modSlot_only ?_
      | with_reducible refine countFilter_only ?_ | with_reducible refine updateTimeliness_only ?_
      | with_reducible refine Only.fold (fun _ _ _ => ?_) ?_ | with_reducible assumption | split
      | (intro b; cases b <;> first | exact .inl (by decide) | exact .inr (Eq.refl _))
      | dsimp only)) hl

/-- What `closeAll` can change. -/
theorem closeAll_only {n : Nat} {xs : List (Fin 16)} {l : List Part} {s u : State} (hu : Only l s u)
    (hl : Within slotParts l := by decide) : Only l s (closeAll n xs u) :=
  hu.after (by
    clear hu
    induction n generalizing xs u with
    | zero => exact Only.rfl
    | succ n ih =>
      cases xs with
      | nil => exact Only.rfl
      | cons i rest => exact (closeOne_only Only.rfl).trans ih) hl

/-- What `closeSlot` can change. -/
theorem closeSlot_only {i : Fin 16} {l : List Part} {s u : State} (hu : Only l s u)
    (hl : Within slotParts l := by decide) : Only l s (closeSlot i u) :=
  hu.after (by
    unfold closeSlot
    repeat (first
      | with_reducible exact Only.rfl | with_reducible refine closeAll_only ?_
      | with_reducible refine Only.fold (fun _ _ _ => ?_) ?_ | with_reducible assumption | split
      | (intro b; cases b <;> first | exact .inl (by decide) | exact .inr (Eq.refl _))
      | dsimp only)) hl

/-- What `completionTest` can change. -/
theorem completionTest_only {i : Fin 16} {l : List Part} {s u : State} (hu : Only l s u)
    (hl : Within slotParts l := by decide) : Only l s (completionTest i u) :=
  hu.after (by
    unfold completionTest
    repeat (first
      | with_reducible exact Only.rfl | with_reducible refine closeSlot_only ?_
      | with_reducible refine Only.fold (fun _ _ _ => ?_) ?_ | with_reducible assumption | split
      | (intro b; cases b <;> first | exact .inl (by decide) | exact .inr (Eq.refl _))
      | dsimp only)) hl

/-- What `expireDeadline` can change. -/
theorem expireDeadline_only {i : Fin 16} {l : List Part} {s u : State} (hu : Only l s u)
    (hl : Within slotParts l := by decide) : Only l s (expireDeadline i u) :=
  hu.after (by
    unfold expireDeadline
    repeat (first
      | with_reducible exact Only.rfl | with_reducible refine closeSlot_only ?_
      | with_reducible refine Only.fold (fun _ _ _ => ?_) ?_ | with_reducible assumption | split
      | (intro b; cases b <;> first | exact .inl (by decide) | exact .inr (Eq.refl _))
      | dsimp only)) hl

/-- What `openSlot` can change. -/
theorem openSlot_only {i : Fin 16} {q : BitVec 16} {m n : Nat} {l : List Part} {s u : State}
    (hu : Only l s u) (hl : Within ([.voids] ++ slotParts) l := by decide) : Only l s (openSlot i q
    m n u) :=
  hu.after (by
    unfold openSlot
    repeat (first
      | with_reducible exact Only.rfl | with_reducible refine completionTest_only ?_
      | with_reducible refine modSlot_only ?_ | with_reducible refine Only.fold (fun _ _ _ => ?_) ?_
      | with_reducible assumption | split
      | (intro b; cases b <;> first | exact .inl (by decide) | exact .inr (Eq.refl _))
      | dsimp only)) hl

/-- What `skipSection` can change. -/
theorem skipSection_only {q : BitVec 16} {l : List Part} {s u : State} (hu : Only l s u)
    (hl : Within [.voids, .counters] l := by decide) : Only l s (skipSection q u) :=
  hu.after (by
    unfold skipSection
    repeat (first
      | with_reducible exact Only.rfl | with_reducible refine addVoid_only ?_
      | with_reducible refine countGlobal_only ?_
      | with_reducible refine Only.fold (fun _ _ _ => ?_) ?_ | with_reducible assumption | split
      | (intro b; cases b <;> first | exact .inl (by decide) | exact .inr (Eq.refl _))
      | dsimp only)) hl

/-- What `closeEarly` can change. -/
theorem closeEarly_only {l : List Part} {s u : State} (hu : Only l s u)
    (hl : Within slotParts l := by decide) : Only l s (closeEarly u) :=
  hu.after (by
    unfold closeEarly
    repeat (first
      | with_reducible exact Only.rfl | with_reducible refine countGlobal_only ?_
      | with_reducible refine closeSlot_only ?_
      | with_reducible refine Only.fold (fun _ _ _ => ?_) ?_ | with_reducible assumption | split
      | (intro b; cases b <;> first | exact .inl (by decide) | exact .inr (Eq.refl _))
      | dsimp only)) hl

/-- What `offerTrigger` can change. -/
theorem offerTrigger_only {q : BitVec 16} {m n : Nat} {l : List Part} {s u : State}
    (hu : Only l s u) (hl : Within ([.voids] ++ slotParts) l := by decide) : Only l s (offerTrigger
    q m n u) :=
  hu.after (by
    unfold offerTrigger
    repeat (first
      | with_reducible exact Only.rfl | with_reducible refine skipSection_only ?_
      | with_reducible refine openSlot_only ?_ | with_reducible refine closeEarly_only ?_
      | with_reducible refine Only.fold (fun _ _ _ => ?_) ?_ | with_reducible assumption | split
      | (intro b; cases b <;> first | exact .inl (by decide) | exact .inr (Eq.refl _))
      | dsimp only)) hl

/-- What `modEntry` can change. -/
theorem modEntry_only {i h : Fin 16} {f : HeadEntry → HeadEntry} {l : List Part} {s u : State}
    (hu : Only l s u) (hl : Within [.slots] l := by decide) : Only l s (modEntry i h f u) :=
  hu.after (by
    unfold modEntry
    repeat (first
      | with_reducible exact Only.rfl | with_reducible refine modSlot_only ?_
      | with_reducible refine Only.fold (fun _ _ _ => ?_) ?_ | with_reducible assumption | split
      | (intro b; cases b <;> first | exact .inl (by decide) | exact .inr (Eq.refl _))
      | dsimp only)) hl

/-- What `judgeInSlot` can change. -/
theorem judgeInSlot_only {i : Fin 16} {bs : List Byte} {l : List Part} {s u : State}
    (hu : Only l s u) (hl : Within slotParts l := by decide) : Only l s (judgeInSlot i bs u) :=
  hu.after (by
    unfold judgeInSlot
    repeat (first
      | with_reducible exact Only.rfl | with_reducible refine completionTest_only ?_
      | with_reducible refine modSlot_only ?_ | with_reducible refine modEntry_only ?_
      | with_reducible refine countHead_only ?_
      | with_reducible refine Only.fold (fun _ _ _ => ?_) ?_ | with_reducible assumption | split
      | (intro b; cases b <;> first | exact .inl (by decide) | exact .inr (Eq.refl _))
      | dsimp only)) hl

/-- What `judgeFragment` can change. -/
theorem judgeFragment_only {bs : List Byte} {l : List Part} {s u : State} (hu : Only l s u)
    (hl : Within slotParts l := by decide) : Only l s (judgeFragment bs u) :=
  hu.after (by
    unfold judgeFragment
    repeat (first
      | with_reducible exact Only.rfl | with_reducible refine judgeInSlot_only ?_
      | with_reducible refine countHead_only ?_
      | with_reducible refine Only.fold (fun _ _ _ => ?_) ?_ | with_reducible assumption | split
      | (intro b; cases b <;> first | exact .inl (by decide) | exact .inr (Eq.refl _))
      | dsimp only)) hl

/-- What `takeFragment` can change. -/
theorem takeFragment_only {l : List Part} {s u : State} (hu : Only l s u) (hl : Within ([.held,
    .ports] ++ slotParts) l := by decide) : Only l s (takeFragment u) :=
  hu.after (by
    unfold takeFragment
    repeat (first
      | with_reducible exact Only.rfl | with_reducible refine releaseFirst_only ?_
      | with_reducible refine judgeFragment_only ?_
      | with_reducible refine Only.fold (fun _ _ _ => ?_) ?_ | with_reducible assumption | split
      | (intro b; cases b <;> first | exact .inl (by decide) | exact .inr (Eq.refl _))
      | dsimp only)) hl

/-- What `flushSlots` can change. -/
theorem flushSlots_only {l : List Part} {s u : State} (hu : Only l s u) (hl : Within [.slots,
    .voids, .gev] l := by decide) : Only l s (flushSlots u) :=
  hu.after (by
    unfold flushSlots
    repeat (first
      | with_reducible exact Only.rfl | with_reducible refine addVoid_only ?_
      | with_reducible refine modSlot_only ?_ | with_reducible refine setEvaluator_only ?_
      | with_reducible refine Only.fold (fun _ _ _ => ?_) ?_ | with_reducible assumption | split
      | (intro b; cases b <;> first | exact .inl (by decide) | exact .inr (Eq.refl _))
      | dsimp only)) hl

/-- What `flushEvents` can change. -/
theorem flushEvents_only {l : List Part} {s u : State} (hu : Only l s u) (hl : Within [.marks,
    .blanking] l := by decide) : Only l s (flushEvents u) :=
  hu.after (by
    unfold flushEvents
    repeat (first
      | with_reducible exact Only.rfl | with_reducible refine Only.fold (fun _ _ _ => ?_) ?_
      | with_reducible assumption | split
      | (intro b; cases b <;> first | exact .inl (by decide) | exact .inr (Eq.refl _))
      | dsimp only)) hl

/-- What `flushMap` can change. -/
theorem flushMap_only {l : List Part} {s u : State} (hu : Only l s u)
    (hl : Within flushParts l := by decide) : Only l s (flushMap u) :=
  hu.after (by
    unfold flushMap
    repeat (first
      | with_reducible exact Only.rfl | with_reducible refine flushEvents_only ?_
      | with_reducible refine flushPieces_only ?_ | with_reducible refine flushSlots_only ?_
      | with_reducible refine flushRings_only ?_
      | with_reducible refine Only.fold (fun _ _ _ => ?_) ?_ | with_reducible assumption | split
      | (intro b; cases b <;> first | exact .inl (by decide) | exact .inr (Eq.refl _))
      | dsimp only)) hl

/-- What `stopTrigger` can change. -/
theorem stopTrigger_only {l : List Part} {s u : State} (hu : Only l s u)
    (hl : Within [.trg] l := by decide) : Only l s (stopTrigger u) :=
  hu.after (by
    unfold stopTrigger
    repeat (first
      | with_reducible exact Only.rfl | with_reducible refine Only.fold (fun _ _ _ => ?_) ?_
      | with_reducible assumption | split
      | (intro b; cases b <;> first | exact .inl (by decide) | exact .inr (Eq.refl _))
      | dsimp only)) hl

/-- What `armTrigger` can change. -/
theorem armTrigger_only {l : List Part} {s u : State} (hu : Only l s u)
    (hl : Within [.trg] l := by decide) : Only l s (armTrigger u) :=
  hu.after (by
    unfold armTrigger
    repeat (first
      | with_reducible exact Only.rfl | with_reducible refine stopTrigger_only ?_
      | with_reducible refine Only.fold (fun _ _ _ => ?_) ?_ | with_reducible assumption | split
      | (intro b; cases b <;> first | exact .inl (by decide) | exact .inr (Eq.refl _))
      | dsimp only)) hl

/-- What `schedulePulse` can change. -/
theorem schedulePulse_only {p : Fin 8} {l : List Part} {s u : State} (hu : Only l s u)
    (hl : Within [.trg] l := by decide) : Only l s (schedulePulse p u) :=
  hu.after (by
    unfold schedulePulse
    repeat (first
      | with_reducible exact Only.rfl | with_reducible refine modOutput_only ?_
      | with_reducible refine Only.fold (fun _ _ _ => ?_) ?_ | with_reducible assumption | split
      | (intro b; cases b <;> first | exact .inl (by decide) | exact .inr (Eq.refl _))
      | dsimp only)) hl

/-- What `fireTrigger` can change. -/
theorem fireTrigger_only {l : List Part} {s u : State} (hu : Only l s u)
    (hl : Within triggerParts l := by decide) : Only l s (fireTrigger u) :=
  hu.after (by
    unfold fireTrigger
    repeat (first
      | with_reducible exact Only.rfl | with_reducible refine offerTrigger_only ?_
      | with_reducible refine schedulePulse_only ?_ | with_reducible refine countGlobal_only ?_
      | with_reducible refine Only.fold (fun _ _ _ => ?_) ?_ | with_reducible assumption | split
      | (intro b; cases b <;> first | exact .inl (by decide) | exact .inr (Eq.refl _))
      | dsimp only)) hl

/-- What `firePitch` can change. -/
theorem firePitch_only {l : List Part} {s u : State} (hu : Only l s u)
    (hl : Within triggerParts l := by decide) : Only l s (firePitch u) :=
  hu.after (by
    unfold firePitch
    repeat (first
      | with_reducible exact Only.rfl | with_reducible refine fireTrigger_only ?_
      | with_reducible refine countGlobalBy_only ?_
      | with_reducible refine Only.fold (fun _ _ _ => ?_) ?_ | with_reducible assumption | split
      | (intro b; cases b <;> first | exact .inl (by decide) | exact .inr (Eq.refl _))
      | dsimp only)) hl

/-- What `fireTime` can change. -/
theorem fireTime_only {l : List Part} {s u : State} (hu : Only l s u)
    (hl : Within triggerParts l := by decide) : Only l s (fireTime u) :=
  hu.after (by
    unfold fireTime
    repeat (first
      | with_reducible exact Only.rfl | with_reducible refine fireTrigger_only ?_
      | with_reducible refine Only.fold (fun _ _ _ => ?_) ?_ | with_reducible assumption | split
      | (intro b; cases b <;> first | exact .inl (by decide) | exact .inr (Eq.refl _))
      | dsimp only)) hl

/-- What `pitchDueTest` can change. -/
theorem pitchDueTest_only {l : List Part} {s u : State} (hu : Only l s u)
    (hl : Within triggerParts l := by decide) : Only l s (pitchDueTest u) :=
  hu.after (by
    unfold pitchDueTest
    repeat (first
      | with_reducible exact Only.rfl | with_reducible refine firePitch_only ?_
      | with_reducible refine Only.fold (fun _ _ _ => ?_) ?_ | with_reducible assumption | split
      | (intro b; cases b <;> first | exact .inl (by decide) | exact .inr (Eq.refl _))
      | dsimp only)) hl

/-- What `fireDeferred` can change. -/
theorem fireDeferred_only {l : List Part} {s u : State} (hu : Only l s u)
    (hl : Within triggerParts l := by decide) : Only l s (fireDeferred u) :=
  hu.after (by
    unfold fireDeferred
    repeat (first
      | with_reducible exact Only.rfl | with_reducible refine firePitch_only ?_
      | with_reducible refine fireTime_only ?_
      | with_reducible refine Only.fold (fun _ _ _ => ?_) ?_ | with_reducible assumption | split
      | (intro b; cases b <;> first | exact .inl (by decide) | exact .inr (Eq.refl _))
      | dsimp only)) hl

/-- What `expirePeriod` can change. -/
theorem expirePeriod_only {l : List Part} {s u : State} (hu : Only l s u)
    (hl : Within triggerParts l := by decide) : Only l s (expirePeriod u) :=
  hu.after (by
    unfold expirePeriod
    repeat (first
      | with_reducible exact Only.rfl | with_reducible refine fireTime_only ?_
      | with_reducible refine Only.fold (fun _ _ _ => ?_) ?_ | with_reducible assumption | split
      | (intro b; cases b <;> first | exact .inl (by decide) | exact .inr (Eq.refl _))
      | dsimp only)) hl

/-- What `startPulse` can change. -/
theorem startPulse_only {p : Fin 8} {l : List Part} {s u : State} (hu : Only l s u)
    (hl : Within [.trg] l := by decide) : Only l s (startPulse p u) :=
  hu.after (by
    unfold startPulse
    repeat (first
      | with_reducible exact Only.rfl | with_reducible refine modOutput_only ?_
      | with_reducible refine Only.fold (fun _ _ _ => ?_) ?_ | with_reducible assumption | split
      | (intro b; cases b <;> first | exact .inl (by decide) | exact .inr (Eq.refl _))
      | dsimp only)) hl

/-- What `endPulse` can change. -/
theorem endPulse_only {p : Fin 8} {l : List Part} {s u : State} (hu : Only l s u)
    (hl : Within [.trg] l := by decide) : Only l s (endPulse p u) :=
  hu.after (by
    unfold endPulse
    repeat (first
      | with_reducible exact Only.rfl | with_reducible refine modOutput_only ?_
      | with_reducible refine Only.fold (fun _ _ _ => ?_) ?_ | with_reducible assumption | split
      | (intro b; cases b <;> first | exact .inl (by decide) | exact .inr (Eq.refl _))
      | dsimp only)) hl

/-- What `advanceStillness` can change. -/
theorem advanceStillness_only {l : List Part} {s u : State} (hu : Only l s u)
    (hl : Within [.stillness] l := by decide) : Only l s (advanceStillness u) :=
  hu.after (by
    unfold advanceStillness
    repeat (first
      | with_reducible exact Only.rfl | with_reducible refine Only.fold (fun _ _ _ => ?_) ?_
      | with_reducible assumption | split
      | (intro b; cases b <;> first | exact .inl (by decide) | exact .inr (Eq.refl _))
      | dsimp only)) hl

/-- What `takeAdvance` can change. -/
theorem takeAdvance_only {m : Nat} {l : List Part} {s u : State} (hu : Only l s u)
    (hl : Within advanceParts l := by decide) : Only l s (takeAdvance m u) :=
  hu.after (by
    unfold takeAdvance
    repeat (first
      | with_reducible exact Only.rfl | with_reducible refine advanceStillness_only ?_
      | with_reducible refine advanceMap_only ?_ | with_reducible refine pitchDueTest_only ?_
      | with_reducible refine clearAlarm_only ?_
      | with_reducible refine Only.fold (fun _ _ _ => ?_) ?_ | with_reducible assumption | split
      | (intro b; cases b <;> first | exact .inl (by decide) | exact .inr (Eq.refl _))
      | dsimp only)) hl

/-- What `forwardCount` can change. -/
theorem forwardCount_only {l : List Part} {s u : State} (hu : Only l s u) (hl : Within ([.station,
    .acc] ++ advanceParts) l := by decide) : Only l s (forwardCount u) :=
  hu.after (by
    unfold forwardCount
    repeat (first
      | with_reducible exact Only.rfl | with_reducible refine takeAdvance_only ?_
      | with_reducible refine Only.fold (fun _ _ _ => ?_) ?_ | with_reducible assumption | split
      | (intro b; cases b <;> first | exact .inl (by decide) | exact .inr (Eq.refl _))
      | dsimp only)) hl

/-- What `reverseCount` can change. -/
theorem reverseCount_only {l : List Part} {s u : State} (hu : Only l s u) (hl : Within [.acc,
    .latch, .alarms, .queueA, .counters] l := by decide) : Only l s (reverseCount u) :=
  hu.after (by
    unfold reverseCount
    repeat (first
      | with_reducible exact Only.rfl | with_reducible refine raiseAlarm_only ?_
      | with_reducible refine Only.fold (fun _ _ _ => ?_) ?_ | with_reducible assumption | split
      | (intro b; cases b <;> first | exact .inl (by decide) | exact .inr (Eq.refl _))
      | dsimp only)) hl

/-- What `judgeEncoder` can change. -/
theorem judgeEncoder_only {l : List Part} {s u : State} (hu : Only l s u) (hl : Within ([.station,
    .acc, .phase] ++ advanceParts) l := by decide) : Only l s (judgeEncoder u) :=
  hu.after (by
    unfold judgeEncoder
    repeat (first
      | with_reducible exact Only.rfl | with_reducible refine setPhase_only ?_
      | with_reducible refine forwardCount_only ?_ | with_reducible refine reverseCount_only ?_
      | with_reducible refine Only.fold (fun _ _ _ => ?_) ?_ | with_reducible assumption | split
      | (intro b; cases b <;> first | exact .inl (by decide) | exact .inr (Eq.refl _))
      | dsimp only)) hl

/-- What `changeEncoder` can change. -/
theorem changeEncoder_only {a b : Bool} {l : List Part} {s u : State} (hu : Only l s u)
    (hl : Within ([.pins, .station, .acc, .phase] ++ advanceParts) l := by decide) : Only l s
    (changeEncoder a b u) :=
  hu.after (by
    unfold changeEncoder
    repeat (first
      | with_reducible exact Only.rfl | with_reducible refine setPins_only ?_
      | with_reducible refine judgeEncoder_only ?_
      | with_reducible refine Only.fold (fun _ _ _ => ?_) ?_ | with_reducible assumption | split
      | (intro b; cases b <;> first | exact .inl (by decide) | exact .inr (Eq.refl _))
      | dsimp only)) hl

/-- What `closeWindow` can change. -/
theorem closeWindow_only {l : List Part} {s u : State} (hu : Only l s u) (hl : Within [.window,
    .dies] l := by decide) : Only l s (closeWindow u) :=
  hu.after (by
    unfold closeWindow
    repeat (first
      | with_reducible exact Only.rfl | with_reducible refine modDie_only ?_
      | with_reducible refine setWindow_only ?_
      | with_reducible refine Only.fold (fun _ _ _ => ?_) ?_ | with_reducible assumption | split
      | (intro b; cases b <;> first | exact .inl (by decide) | exact .inr (Eq.refl _))
      | dsimp only)) hl

/-- What `setDieState` can change. -/
theorem setDieState_only {k : Fin 8} {v : DieState} {l : List Part} {s u : State} (hu : Only l s u)
    (hl : Within [.dies] l := by decide) : Only l s (setDieState k v u) :=
  hu.after (by
    unfold setDieState
    repeat (first
      | with_reducible exact Only.rfl | with_reducible refine modDie_only ?_
      | with_reducible refine Only.fold (fun _ _ _ => ?_) ?_ | with_reducible assumption | split
      | (intro b; cases b <;> first | exact .inl (by decide) | exact .inr (Eq.refl _))
      | dsimp only)) hl

/-- What `readyFrom` can change. -/
theorem readyFrom_only {v : DieState} {l : List Part} {s u : State} (hu : Only l s u)
    (hl : Within [.dies] l := by decide) : Only l s (readyFrom v u) :=
  hu.after (by
    unfold readyFrom
    repeat (first
      | with_reducible exact Only.rfl | with_reducible refine Only.fold (fun _ _ _ => ?_) ?_
      | with_reducible assumption | split
      | (intro b; cases b <;> first | exact .inl (by decide) | exact .inr (Eq.refl _))
      | dsimp only)) hl

/-- What `placeInService` can change. -/
theorem placeInService_only {k : Fin 8} {l : List Part} {s u : State} (hu : Only l s u)
    (hl : Within dieParts l := by decide) : Only l s (placeInService k u) :=
  hu.after (by
    unfold placeInService
    repeat (first
      | with_reducible exact Only.rfl | with_reducible refine forgetTemps_only ?_
      | with_reducible refine takeCurves_only ?_ | with_reducible refine flushMap_only ?_
      | with_reducible refine setDieState_only ?_ | with_reducible refine readyFrom_only ?_
      | with_reducible refine Only.fold (fun _ _ _ => ?_) ?_ | with_reducible assumption | split
      | (intro b; cases b <;> first | exact .inl (by decide) | exact .inr (Eq.refl _))
      | dsimp only)) hl

/-- What `startInspection` can change. -/
theorem startInspection_only {k : Fin 8} {l : List Part} {s u : State} (hu : Only l s u)
    (hl : Within ([.service, .trg, .stillness] ++ dieParts) l := by decide) : Only l s
    (startInspection k u) :=
  hu.after (by
    unfold startInspection
    repeat (first
      | with_reducible exact Only.rfl | with_reducible refine setStillness_only ?_
      | with_reducible refine armTrigger_only ?_ | with_reducible refine setService_only ?_
      | with_reducible refine placeInService_only ?_
      | with_reducible refine Only.fold (fun _ _ _ => ?_) ?_ | with_reducible assumption | split
      | (intro b; cases b <;> first | exact .inl (by decide) | exact .inr (Eq.refl _))
      | dsimp only)) hl

/-- What `changeDie` can change. -/
theorem changeDie_only {k : Fin 8} {l : List Part} {s u : State} (hu : Only l s u)
    (hl : Within dieParts l := by decide) : Only l s (changeDie k u) :=
  hu.after (by
    unfold changeDie
    repeat (first
      | with_reducible exact Only.rfl | with_reducible refine raiseAlarm_only ?_
      | with_reducible refine placeInService_only ?_
      | with_reducible refine Only.fold (fun _ _ _ => ?_) ?_ | with_reducible assumption | split
      | (intro b; cases b <;> first | exact .inl (by decide) | exact .inr (Eq.refl _))
      | dsimp only)) hl

/-- What `stageDie` can change. -/
theorem stageDie_only {k : Fin 8} {l : List Part} {s u : State} (hu : Only l s u)
    (hl : Within [.dies] l := by decide) : Only l s (stageDie k u) :=
  hu.after (by
    unfold stageDie
    repeat (first
      | with_reducible exact Only.rfl | with_reducible refine setDieState_only ?_
      | with_reducible refine readyFrom_only ?_
      | with_reducible refine Only.fold (fun _ _ _ => ?_) ?_ | with_reducible assumption | split
      | (intro b; cases b <;> first | exact .inl (by decide) | exact .inr (Eq.refl _))
      | dsimp only)) hl

/-- What `endInspection` can change. -/
theorem endInspection_only {l : List Part} {s u : State} (hu : Only l s u) (hl : Within ([.dies,
    .service, .trg, .stillness] ++ flushParts) l := by decide) : Only l s (endInspection u) :=
  hu.after (by
    unfold endInspection
    repeat (first
      | with_reducible exact Only.rfl | with_reducible refine setStillness_only ?_
      | with_reducible refine staleClearTest_only ?_ | with_reducible refine stopTrigger_only ?_
      | with_reducible refine setService_only ?_ | with_reducible refine flushMap_only ?_
      | with_reducible refine readyFrom_only ?_
      | with_reducible refine Only.fold (fun _ _ _ => ?_) ?_ | with_reducible assumption | split
      | (intro b; cases b <;> first | exact .inl (by decide) | exact .inr (Eq.refl _))
      | dsimp only)) hl

/-- What `addPending` can change. -/
theorem addPending_only {e : PendingMark} {l : List Part} {s u : State} (hu : Only l s u)
    (hl : Within [.marks, .counters, .alarms, .queueA] l := by decide) : Only l s (addPending e u)
    :=
  hu.after (by
    unfold addPending
    repeat (first
      | with_reducible exact Only.rfl | with_reducible refine setMarks_only ?_
      | with_reducible refine raiseAlarm_only ?_ | with_reducible refine countGlobal_only ?_
      | with_reducible refine Only.fold (fun _ _ _ => ?_) ?_ | with_reducible assumption | split
      | (intro b; cases b <;> first | exact .inl (by decide) | exact .inr (Eq.refl _))
      | dsimp only)) hl

/-- What `markImmediate` can change. -/
theorem markImmediate_only {k : MarkKind} {c : Consequence} {n : Word32} {m : Nat} {t : Fin 4} {l :
    List Part} {s u : State} (hu : Only l s u) (hl : Within [.rings, .counters] l := by decide) :
    Only l s (markImmediate k c n m t u) :=
  hu.after (by
    unfold markImmediate
    repeat (first
      | with_reducible exact Only.rfl | with_reducible refine countStrand_only ?_
      | with_reducible refine modRing_only ?_ | with_reducible refine Only.fold (fun _ _ _ => ?_) ?_
      | with_reducible assumption | split
      | (intro b; cases b <;> first | exact .inl (by decide) | exact .inr (Eq.refl _))
      | dsimp only)) hl

/-- What `placeMark` can change. -/
theorem placeMark_only {k : MarkKind} {l : List Part} {s u : State} (hu : Only l s u)
    (hl : Within [.rings, .counters, .marks, .alarms, .queueA] l := by decide) : Only l s (placeMark
    k u) :=
  hu.after (by
    unfold placeMark
    repeat (first
      | with_reducible exact Only.rfl | with_reducible refine addPending_only ?_
      | with_reducible refine markImmediate_only ?_
      | with_reducible refine Only.fold (fun _ _ _ => ?_) ?_ | with_reducible assumption | split
      | (intro b; cases b <;> first | exact .inl (by decide) | exact .inr (Eq.refl _))
      | dsimp only)) hl

/-- What `openBlanking` can change. -/
theorem openBlanking_only {l : List Part} {s u : State} (hu : Only l s u)
    (hl : Within [.blanking] l := by decide) : Only l s (openBlanking u) :=
  hu.after (by
    unfold openBlanking
    repeat (first
      | with_reducible exact Only.rfl | with_reducible refine Only.fold (fun _ _ _ => ?_) ?_
      | with_reducible assumption | split
      | (intro b; cases b <;> first | exact .inl (by decide) | exact .inr (Eq.refl _))
      | dsimp only)) hl

/-- What `offerEvent` can change. -/
theorem offerEvent_only {r : EventRecord} {l : List Part} {s u : State} (hu : Only l s u)
    (hl : Within [.queueB, .counters] l := by decide) : Only l s (offerEvent r u) :=
  hu.after (by
    unfold offerEvent
    repeat (first
      | with_reducible exact Only.rfl | with_reducible refine countGlobal_only ?_
      | with_reducible refine Only.fold (fun _ _ _ => ?_) ?_ | with_reducible assumption | split
      | (intro b; cases b <;> first | exact .inl (by decide) | exact .inr (Eq.refl _))
      | dsimp only)) hl

/-- What `pushStart` can change. -/
theorem pushStart_only {l : List Part} {s u : State} (hu : Only l s u)
    (hl : Within dieParts l := by decide) : Only l s (pushStart u) :=
  hu.after (by
    unfold pushStart
    repeat (first
      | with_reducible exact Only.rfl | with_reducible refine changeDie_only ?_
      | with_reducible refine takeCurves_only ?_
      | with_reducible refine Only.fold (fun _ _ _ => ?_) ?_ | with_reducible assumption | split
      | (intro b; cases b <;> first | exact .inl (by decide) | exact .inr (Eq.refl _))
      | dsimp only)) hl

/-- What `eventWork` can change. -/
theorem eventWork_only {k : EventKind} {l : List Part} {s u : State} (hu : Only l s u)
    (hl : Within dieParts l := by decide) : Only l s (eventWork k u) :=
  hu.after (by
    unfold eventWork
    repeat (first
      | with_reducible exact Only.rfl | with_reducible refine placeMark_only ?_
      | with_reducible refine openBlanking_only ?_ | with_reducible refine pushStart_only ?_
      | with_reducible refine takeCut_only ?_ | with_reducible refine Only.fold (fun _ _ _ => ?_) ?_
      | with_reducible assumption | split
      | (intro b; cases b <;> first | exact .inl (by decide) | exact .inr (Eq.refl _))
      | dsimp only)) hl

/-- What `takeEvent` can change. -/
theorem takeEvent_only {k : EventKind} {l : List Part} {s u : State} (hu : Only l s u)
    (hl : Within dieParts l := by decide) : Only l s (takeEvent k u) :=
  hu.after (by
    unfold takeEvent
    repeat (first
      | with_reducible exact Only.rfl | with_reducible refine offerEvent_only ?_
      | with_reducible refine eventWork_only ?_ | with_reducible refine countGlobal_only ?_
      | with_reducible refine Only.fold (fun _ _ _ => ?_) ?_ | with_reducible assumption | split
      | (intro b; cases b <;> first | exact .inl (by decide) | exact .inr (Eq.refl _))
      | dsimp only)) hl

/-- What `takeEdge` can change. -/
theorem takeEdge_only {x : EventLine} {l : List Part} {s u : State} (hu : Only l s u)
    (hl : Within ([.lines] ++ dieParts) l := by decide) : Only l s (takeEdge x u) :=
  hu.after (by
    unfold takeEdge
    repeat (first
      | with_reducible exact Only.rfl | with_reducible refine takeEvent_only ?_
      | with_reducible refine modLine_only ?_ | with_reducible refine Only.fold (fun _ _ _ => ?_) ?_
      | with_reducible assumption | split
      | (intro b; cases b <;> first | exact .inl (by decide) | exact .inr (Eq.refl _))
      | dsimp only)) hl

/-- What `settleLine` can change. -/
theorem settleLine_only {x : EventLine} {l : List Part} {s u : State} (hu : Only l s u)
    (hl : Within ([.lines] ++ dieParts) l := by decide) : Only l s (settleLine x u) :=
  hu.after (by
    unfold settleLine
    repeat (first
      | with_reducible exact Only.rfl | with_reducible refine takeEdge_only ?_
      | with_reducible refine Only.fold (fun _ _ _ => ?_) ?_ | with_reducible assumption | split
      | (intro b; cases b <;> first | exact .inl (by decide) | exact .inr (Eq.refl _))
      | dsimp only)) hl

/-- What `followLine` can change. -/
theorem followLine_only {x : EventLine} {l : List Part} {s u : State} (hu : Only l s u)
    (hl : Within [.lines] l := by decide) : Only l s (followLine x u) :=
  hu.after (by
    unfold followLine
    repeat (first
      | with_reducible exact Only.rfl | with_reducible refine modLine_only ?_
      | with_reducible refine Only.fold (fun _ _ _ => ?_) ?_ | with_reducible assumption | split
      | (intro b; cases b <;> first | exact .inl (by decide) | exact .inr (Eq.refl _))
      | dsimp only)) hl

/-- What `changeLine` can change. -/
theorem changeLine_only {x : EventLine} {v : Bool} {l : List Part} {s u : State} (hu : Only l s u)
    (hl : Within ([.pins, .lines] ++ dieParts) l := by decide) : Only l s (changeLine x v u) :=
  hu.after (by
    unfold changeLine
    repeat (first
      | with_reducible exact Only.rfl | with_reducible refine setPins_only ?_
      | with_reducible refine settleLine_only ?_ | with_reducible refine followLine_only ?_
      | with_reducible refine Only.fold (fun _ _ _ => ?_) ?_ | with_reducible assumption | split
      | (intro b; cases b <;> first | exact .inl (by decide) | exact .inr (Eq.refl _))
      | dsimp only)) hl

/-- What `expireStillness` can change. -/
theorem expireStillness_only {l : List Part} {s u : State} (hu : Only l s u)
    (hl : Within ([.stillness] ++ dieParts) l := by decide) : Only l s (expireStillness u) :=
  hu.after (by
    unfold expireStillness
    repeat (first
      | with_reducible exact Only.rfl | with_reducible refine takeEvent_only ?_
      | with_reducible refine setStillness_only ?_
      | with_reducible refine Only.fold (fun _ _ _ => ?_) ?_ | with_reducible assumption | split
      | (intro b; cases b <;> first | exact .inl (by decide) | exact .inr (Eq.refl _))
      | dsimp only)) hl

/-- What `deliver` can change. -/
theorem deliver_only {t : Fin 4} {n : Word32} {f : Cell → Cell} {l : List Part} {s u : State}
    (hu : Only l s u) (hl : Within [.rings, .counters] l := by decide) : Only l s (deliver t n f u)
    :=
  hu.after (by
    unfold deliver
    repeat (first
      | with_reducible exact Only.rfl | with_reducible refine countStrand_only ?_
      | with_reducible refine modRing_only ?_ | with_reducible refine Only.fold (fun _ _ _ => ?_) ?_
      | with_reducible assumption | split
      | (intro b; cases b <;> first | exact .inl (by decide) | exact .inr (Eq.refl _))
      | dsimp only)) hl

/-- What `offerSection` can change. -/
theorem offerSection_only {r : SectionRecord} {l : List Part} {s u : State} (hu : Only l s u)
    (hl : Within [.queueC, .counters] l := by decide) : Only l s (offerSection r u) :=
  hu.after (by
    unfold offerSection
    repeat (first
      | with_reducible exact Only.rfl | with_reducible refine countGlobal_only ?_
      | with_reducible refine Only.fold (fun _ _ _ => ?_) ?_ | with_reducible assumption | split
      | (intro b; cases b <;> first | exact .inl (by decide) | exact .inr (Eq.refl _))
      | dsimp only)) hl

/-- What `completeBlanked` can change. -/
theorem completeBlanked_only {x : Slot} {t : Fin 4} {l : List Part} {s u : State} (hu : Only l s u)
    (hl : Within [.rings, .counters] l := by decide) : Only l s (completeBlanked x t u) :=
  hu.after (by
    unfold completeBlanked
    repeat (first
      | with_reducible exact Only.rfl | with_reducible refine deliver_only ?_
      | with_reducible refine countStrand_only ?_
      | with_reducible refine Only.fold (fun _ _ _ => ?_) ?_ | with_reducible assumption | split
      | (intro b; cases b <;> first | exact .inl (by decide) | exact .inr (Eq.refl _))
      | dsimp only)) hl

/-- What `completeEvaluated` can change. -/
theorem completeEvaluated_only {x : Slot} {t : Fin 4} {l : List Part} {s u : State}
    (hu : Only l s u) (hl : Within [.rings, .counters, .queueC] l := by decide) : Only l s
    (completeEvaluated x t u) :=
  hu.after (by
    unfold completeEvaluated
    repeat (first
      | with_reducible exact Only.rfl | with_reducible refine offerSection_only ?_
      | with_reducible refine deliver_only ?_ | with_reducible refine countStrand_only ?_
      | with_reducible refine Only.fold (fun _ _ _ => ?_) ?_ | with_reducible assumption | split
      | (intro b; cases b <;> first | exact .inl (by decide) | exact .inr (Eq.refl _))
      | dsimp only)) hl

/-- What `completeEvaluation` can change. -/
theorem completeEvaluation_only {l : List Part} {s u : State} (hu : Only l s u)
    (hl : Within [.rings, .counters, .queueC, .slots, .gev] l := by decide) : Only l s
    (completeEvaluation u) :=
  hu.after (by
    unfold completeEvaluation
    repeat (first
      | with_reducible exact Only.rfl | with_reducible refine takeSlot_only ?_
      | with_reducible refine setEvaluator_only ?_ | with_reducible refine modSlot_only ?_
      | with_reducible refine completeBlanked_only ?_
      | with_reducible refine completeEvaluated_only ?_
      | with_reducible refine Only.fold (fun _ _ _ => ?_) ?_ | with_reducible assumption | split
      | (intro b; cases b <;> first | exact .inl (by decide) | exact .inr (Eq.refl _))
      | dsimp only)) hl

/-- What `offerRequest` can change. -/
theorem offerRequest_only {r : Request} {l : List Part} {s u : State} (hu : Only l s u)
    (hl : Within [.input, .counters] l := by decide) : Only l s (offerRequest r u) :=
  hu.after (by
    unfold offerRequest
    repeat (first
      | with_reducible exact Only.rfl | with_reducible refine countGlobal_only ?_
      | with_reducible refine Only.fold (fun _ _ _ => ?_) ?_ | with_reducible assumption | split
      | (intro b; cases b <;> first | exact .inl (by decide) | exact .inr (Eq.refl _))
      | dsimp only)) hl

/-- What `judgeUplink` can change. -/
theorem judgeUplink_only {bs : List Byte} {l : List Part} {s u : State} (hu : Only l s u)
    (hl : Within [.input, .counters] l := by decide) : Only l s (judgeUplink bs u) :=
  hu.after (by
    unfold judgeUplink
    repeat (first
      | with_reducible exact Only.rfl | with_reducible refine offerRequest_only ?_
      | with_reducible refine countPort_only ?_
      | with_reducible refine Only.fold (fun _ _ _ => ?_) ?_ | with_reducible assumption | split
      | (intro b; cases b <;> first | exact .inl (by decide) | exact .inr (Eq.refl _))
      | dsimp only)) hl

/-- What `receiveOnUplink` can change. -/
theorem receiveOnUplink_only {f : Frame} {l : List Part} {s u : State} (hu : Only l s u)
    (hl : Within [.input, .counters] l := by decide) : Only l s (receiveOnUplink f u) :=
  hu.after (by
    unfold receiveOnUplink
    repeat (first
      | with_reducible exact Only.rfl | with_reducible refine judgeUplink_only ?_
      | with_reducible refine Only.fold (fun _ _ _ => ?_) ?_ | with_reducible assumption | split
      | (intro b; cases b <;> first | exact .inl (by decide) | exact .inr (Eq.refl _))
      | dsimp only)) hl

/-- What `sendReport` can change. -/
theorem sendReport_only {q : QueueId} {x : List OutFrame} {l : List Part} {s u : State}
    (hu : Only l s u) (hl : Within [.sending] l := by decide) : Only l s (sendReport q x u) :=
  hu.after (by
    unfold sendReport
    repeat (first
      | with_reducible exact Only.rfl | with_reducible refine setSending_only ?_
      | with_reducible refine Only.fold (fun _ _ _ => ?_) ?_ | with_reducible assumption | split
      | (intro b; cases b <;> first | exact .inl (by decide) | exact .inr (Eq.refl _))
      | dsimp only)) hl

/-- What `beginSending` can change. -/
theorem beginSending_only {q : QueueId} {l : List Part} {s u : State} (hu : Only l s u)
    (hl : Within [.sending, .held] l := by decide) : Only l s (beginSending q u) :=
  hu.after (by
    unfold beginSending
    repeat (first
      | with_reducible exact Only.rfl | with_reducible refine sendReport_only ?_
      | with_reducible refine setSending_only ?_ | with_reducible refine setHeld_only ?_
      | with_reducible refine Only.fold (fun _ _ _ => ?_) ?_ | with_reducible assumption | split
      | (intro b; cases b <;> first | exact .inl (by decide) | exact .inr (Eq.refl _))
      | dsimp only)) hl

/-- What `noteSent` can change. -/
theorem noteSent_only {f : Option OutFrame} {l : List Part} {s u : State} (hu : Only l s u)
    (hl : Within [.pending, .resetPhase] l := by decide) : Only l s (noteSent f u) :=
  hu.after (by
    unfold noteSent
    repeat (first
      | with_reducible exact Only.rfl | with_reducible refine Only.fold (fun _ _ _ => ?_) ?_
      | with_reducible assumption | split
      | (intro b; cases b <;> first | exact .inl (by decide) | exact .inr (Eq.refl _))
      | dsimp only)) hl

/-- What `endSending` can change. -/
theorem endSending_only {l : List Part} {s u : State} (hu : Only l s u) (hl : Within [.sending,
    .pending, .queueA, .queueB, .queueC, .resetPhase, .log, .alarms, .held, .ports, .counters] l := by decide)
    : Only l s (endSending u) :=
  hu.after (by
    unfold endSending
    repeat (first
      | with_reducible exact Only.rfl | with_reducible refine noteSent_only ?_
      | with_reducible refine queuePieceReports_only ?_ | with_reducible refine releaseFirst_only ?_
      | with_reducible refine setSending_only ?_
      | with_reducible refine Only.fold (fun _ _ _ => ?_) ?_ | with_reducible assumption | split
      | (intro b; cases b <;> first | exact .inl (by decide) | exact .inr (Eq.refl _))
      | dsimp only)) hl

/-- What `respond` can change. -/
theorem respond_only {r : Request} {x : Reply} {l : List Part} {s u : State} (hu : Only l s u)
    (hl : Within [.queueA, .reserved] l := by decide) : Only l s (respond r x u) :=
  hu.after (by
    unfold respond
    repeat (first
      | with_reducible exact Only.rfl | with_reducible refine Only.fold (fun _ _ _ => ?_) ?_
      | with_reducible assumption | split
      | (intro b; cases b <;> first | exact .inl (by decide) | exact .inr (Eq.refl _))
      | dsimp only)) hl

/-- What `bindFirst` can change. -/
theorem bindFirst_only {a : Address} {l : List Part} {s u : State} (hu : Only l s u)
    (hl : Within [.binding] l := by decide) : Only l s (bindFirst a u) :=
  hu.after (by
    unfold bindFirst
    repeat (first
      | with_reducible exact Only.rfl | with_reducible refine Only.fold (fun _ _ _ => ?_) ?_
      | with_reducible assumption | split
      | (intro b; cases b <;> first | exact .inl (by decide) | exact .inr (Eq.refl _))
      | dsimp only)) hl

end

end Sys2Proof.Machine
end

