-- ==== Sys2Proof/Laws/Ring.lean ====
section
/-! SUPPORT. The canonical form of a ring (R115): every operation on rings keeps it, and what each leaves in
a slot. -/

namespace Sys2Proof.Machine

/-- The canonical form, as a proposition. -/
theorem Ring.wf_iff (r : Ring) :
    r.wf = true ↔ r.Pairwise (fun x y => x.1 < y.1) ∧
      ∀ e ∈ r, e.1 < Config.ringSlots ∧ e.1 = slotOf e.2.number := by
  simp [Ring.wf]

/-- The empty ring. -/
theorem Ring.wf_nil : Ring.wf [] = true := by decide

/-- A ring slot number is below 4096. -/
theorem slotOf_lt (n : Word32) : slotOf n < Config.ringSlots := Nat.mod_lt _ (by decide)

/-- Every entry of a ring with slot k set is the new one or an old one. -/
theorem Ring.mem_put {k : Nat} {c : Cell} {r : Ring} {e : Nat × Cell} (h : e ∈ Ring.put k c r) :
    e = (k, c) ∨ e ∈ r := by
  induction r with
  | nil => simpa [Ring.put] using h
  | cons x r ih =>
    obtain ⟨j, d⟩ := x
    simp only [Ring.put] at h
    split at h
    · simpa using h
    · split at h
      · rcases List.mem_cons.1 h with h | h
        · exact .inl h
        · exact .inr (List.mem_cons_of_mem _ h)
      · rcases List.mem_cons.1 h with h | h
        · exact .inr (h ▸ List.mem_cons_self ..)
        · exact (ih h).imp id (List.mem_cons_of_mem _)

/-- Setting a slot keeps the slots rising. -/
theorem Ring.put_sorted (k : Nat) (c : Cell) {r : Ring} (h : r.Pairwise (fun x y => x.1 < y.1)) :
    (Ring.put k c r).Pairwise (fun x y => x.1 < y.1) := by
  induction r with
  | nil => simp [Ring.put]
  | cons x r ih =>
    obtain ⟨j, d⟩ := x
    rw [List.pairwise_cons] at h
    simp only [Ring.put]
    split
    · rename_i hk
      refine List.pairwise_cons.2 ⟨fun e he => ?_, List.pairwise_cons.2 h⟩
      rcases List.mem_cons.1 he with he | he
      · exact he ▸ hk
      · exact Nat.lt_trans hk (h.1 e he)
    · rename_i hk
      split
      · rename_i hkj
        exact List.pairwise_cons.2 ⟨fun e he => hkj ▸ h.1 e he, h.2⟩
      · rename_i hkj
        refine List.pairwise_cons.2 ⟨fun e he => ?_, ih h.2⟩
        rcases Ring.mem_put he with he | he
        · exact he ▸ (show j < k by omega)
        · exact h.1 e he

/-- Setting a cell's own slot keeps the canonical form. -/
theorem Ring.put_wf {c : Cell} {r : Ring} (h : r.wf = true) :
    (Ring.put (slotOf c.number) c r).wf = true := by
  rw [Ring.wf_iff] at h ⊢
  refine ⟨Ring.put_sorted _ _ h.1, fun e he => ?_⟩
  rcases Ring.mem_put he with he | he
  · exact he ▸ ⟨slotOf_lt _, rfl⟩
  · exact h.2 e he

/-- Changing cells in place keeps the canonical form. -/
theorem Ring.onCells_wf (p : Cell → Bool) (f : Cell → Cell) {r : Ring} (h : r.wf = true) :
    (r.onCells p f).wf = true := by
  rw [Ring.wf_iff] at h ⊢
  have slot (e : Nat × Cell) :
      (if p e.2 then (e.1, { f e.2 with number := e.2.number }) else e).1 = e.1 := by split <;> rfl
  refine ⟨?_, fun e he => ?_⟩
  · refine (List.pairwise_map.2 (h.1.imp fun {x y} hxy => ?_))
    rw [slot, slot]; exact hxy
  · obtain ⟨x, hx, rfl⟩ := List.mem_map.1 he
    have := h.2 x hx
    split <;> exact this

/-- Changing one cell in place keeps the canonical form. -/
theorem Ring.onCell_wf (n : Word32) (f : Cell → Cell) {r : Ring} (h : r.wf = true) :
    (r.onCell n f).wf = true := Ring.onCells_wf _ f h

/-- The ring a flush makes has the canonical form. -/
theorem Ring.flushed_wf (d : Int) (tag : Word32) : (Ring.flushed d tag).wf = true := by
  rw [Ring.wf_iff]
  refine ⟨List.pairwise_map.2 (List.pairwise_lt_range.imp fun h => h), fun e he => ?_⟩
  obtain ⟨n, hn, rfl⟩ := List.mem_map.1 he
  have hn : n < Config.ringSlots :=
    Nat.lt_of_lt_of_le (List.mem_range.1 hn) (Nat.min_le_right _ _)
  refine ⟨hn, ?_⟩
  have : n < 4096 := hn
  simp [slotOf, Cell.made, Config.ringSlots, BitVec.toNat_ofNat]
  omega

/-- What a ring with slot k set holds in each slot. -/
theorem Ring.at_put (k j : Nat) (c : Cell) {r : Ring} (h : r.Pairwise (fun x y => x.1 < y.1)) :
    (Ring.put k c r).at j = if k = j then some c else r.at j := by
  induction r with
  | nil => by_cases hkj : k = j <;> simp [Ring.put, Ring.at, hkj]
  | cons x r ih =>
    obtain ⟨i, d⟩ := x
    rw [List.pairwise_cons] at h
    have ih := ih h.2
    simp only [Ring.at, Ring.put] at ih ⊢
    split
    · by_cases hkj : k = j <;> simp [hkj]
    · split
      · by_cases hkj : k = j <;> simp_all
      · by_cases hij : i = j
        · have hkj : k ≠ j := by omega
          simp [hij, hkj]
        · simp [hij, ih]

end Sys2Proof.Machine
end

