-- ==== Sys2Proof/Tests/Slice0.lean ====
section
/-! SUPPORT. The model's own tests: the check of operands, one step of the commands on small states, and for each
obligation with hypotheses states that meet them. -/

open Sys2Proof Sys2Proof.Machine

namespace Sys2Proof.Tests

set_option Elab.async false

/-! ## Small states -/

/-- What a command leaves, seen through f; none where it stops. -/
def seen {α : Type} (c : Instr) (s : State) (f : State → α) : Option α :=
  match exec c s with
  | .next t => some (f t)
  | _ => none

/-- A request from address 02-00-00-00-00-01 with tag 9. -/
def reqOf (command : Byte) (args : List Nat) : Request :=
  { source := 0x020000000001#48, tag := 9, command := command, args := args.map (BitVec.ofNat 8) }

/-- s with one request waiting. -/
def asked (command : Byte) (args : List Nat) (s : State) : State :=
  { s with mga := { s.mga with input := [reqOf command args] } }

/-- A SET_CONFIG request of one entry. -/
def setOf (item index : Nat) (value : List Nat) : Request := reqOf 2 ([item / 256, item % 256, index] ++ value)

/-- s with a SET_CONFIG request of one entry waiting. -/
def setting (item index : Nat) (value : List Nat) (s : State) : State :=
  { s with mga := { s.mga with input := [setOf item index value] } }

/-- Eight bytes that carry a number below 65536. -/
def small (v : Nat) : List Nat := [0, 0, 0, 0, 0, 0, v / 256, v % 256]

/-- The bytes of a value, or of a request. -/
def bytes8 (value : List Nat) : List Byte := value.map (BitVec.ofNat 8)

/-- The last response of queue A: its status and data. -/
def said (s : State) : Option (Status × List Byte) :=
  s.egs.a.getLast?.bind fun f =>
    match f.content with
    | .response _ _ st d => some (st, d)
    | _ => none

/-- A frame with its right check sequence. -/
def framed (bytes : List Nat) : Frame :=
  let bs := padTo 60 (bytes.map (BitVec.ofNat 8))
  { bytes := bs, fcs := crc32 bs }

/-- The station address after reset, then a source address, the frame type value and the version. -/
def header : List Nat := [0x0A, 0x4E, 0x56, 0x24, 0x80, 0, 2, 0, 0, 0, 0, 7, 0x9C, 0x61, 1]

/-- A SCAN frame of one point, of a head, fragment index, fragment count and scan sequence number. -/
def scan (head index count seq : Nat) : Frame :=
  framed (header ++ [1, 0, 16, head, index, count, 0, seq, 0, 1, 0, 1, 0, 2, 9])

/-- A TEMP frame of one reading. -/
def temp (strand flags hi lo : Nat) : Frame := framed (header ++ [2, 0, 9, 1, strand, flags, hi, lo])

/-- A management frame: IDENTIFY with tag 9. -/
def identifyFrame : Frame := framed (header ++ [4, 0, 7, 0, 9, 1])

/-- After reset, with port 0 in a role. -/
def inRole (r : Role) : State := State.reset.modPort 0 fun x => { x with role := r }

/-- A HEAD port 0 with head 0 in a state. -/
def headed (st : HeadState) : State := (inRole .head).modHead 0 fun h => { h with state := st }

/-- A geometry of 200 position units a cell, its origin 600 before M = 0. -/
def geometry0 : Geometry := { cellLength := 200, dieToStation := 1000, stationToSaw := 600, origin := -600 }

/-- IDLE with a geometry. -/
def idle : State :=
  { State.reset with
    lmp := { geometry := some geometry0, rings := Vector.replicate 4 [] }
    dlb := { State.reset.dlb with service := .idle } }

/-- A die of one strand, with confirm counts 3 and 2 and a scrap limit of 40. -/
def die1 : DieRecord :=
  { DieRecord.blank with
    entry := { DieRecord.blank.entry with
      strandCount := 1, scrapConfirm := 3, holdConfirm := 2, scrapLimit := 40, blankLength := 100 } }

/-- INSPECTING with die1 in slot 0, cell 0 LIVE and cell 1 CLOSED in strand 0. -/
def serving : State :=
  { idle with
    dlb := { service := .inspecting,
             slots := idle.dlb.slots.set 0 { DieSlot.default with state := .inService, record := die1 } }
    lmp := { geometry := some geometry0
             rings := #v[[(0, Cell.made 0 .live false 7), (1, Cell.made 1 .closed false 7)], [], [], []] }
    emu := { idle.emu with stillness := .running 1500000 }
    pcu := { idle.pcu with strands := upd idle.pcu.strands 0 fun p => { p with openPiece := some (Piece.new 0) } } }

/-- serving, with slot k in a state besides. -/
def withDie (k : Fin 8) (st : DieState) (s : State) : State :=
  s.modDie k fun d => { d with state := st, record := die1 }

/-- An outgoing frame with the response of a request. -/
def response (command : Byte) : OutFrame :=
  { frameType := 0x9C61, source := 0x0A4E56248000#48, dest := some 0x020000000001#48,
    content := .response 9 command .ok [] }

/-- A held frame of queue D on port 0. -/
def queuedRaw : HeldFrame :=
  { port := 0, bytes := (scan 0 0 1 1).bytes, ptu := false, tmu := false, queueD := .queued .raw }

/-- Slot 0 COLLECTING number 1, awaiting head 0. -/
def collecting : State :=
  { (headed .measure).modSlot 0 fun x =>
      { x with state := .collecting, seq := 1, deadline := 2000, heads := x.heads.set 0 (.fresh .measure) } with
    trg := { State.reset.trg with seq := 1 } }

/-- A fragment of head 0 held for the transform unit. -/
def holding (f : Frame) (s : State) : State :=
  { s with pool := { s.pool with held := [{ port := 0, bytes := f.bytes, ptu := true, tmu := false, queueD := .none }] } }

/-! ## The check of operands -/

theorem test_refuses_port_8_frame : (Instr.headFrameReceive 8 (framed [])).wellFormed = false := by decide +kernel
theorem test_refuses_port_8_notice_start : (Instr.noticeSendStart 8).wellFormed = false := by decide
theorem test_refuses_port_8_notice_end : (Instr.noticeSendEnd 8).wellFormed = false := by decide
theorem test_refuses_port_8_pulse_start : (Instr.pulseStart 8).wellFormed = false := by decide
theorem test_refuses_port_8_pulse_release : (Instr.pulseRelease 8).wellFormed = false := by decide
theorem test_refuses_slot_16 : (Instr.slotDeadlineExpiry 16).wellFormed = false := by decide
theorem test_refuses_strand_4_temp : (Instr.tempExpiry 4).wellFormed = false := by decide
theorem test_refuses_strand_4_gate : (Instr.gateRelease 4).wellFormed = false := by decide
theorem test_takes_greatest_instances :
    (Instr.noticeSendStart 7).wellFormed = true ∧ (Instr.slotDeadlineExpiry 15).wellFormed = true ∧
      (Instr.tempExpiry 3).wellFormed = true ∧ Instr.badCommand.wellFormed = true := by decide
theorem test_ill_formed_command_faults : seen (.pulseStart 8) State.reset (·.now) = none := by decide +kernel

/-- No row of the table has bits, so no word spells a command. -/
theorem test_no_word_spells_a_command (n w : Nat) : decodeTableWord n w = none := rfl

/-- The check value of the cyclic redundancy check: CBF43926h for the digits 1 to 9. -/
theorem test_crc_of_the_nine_digits :
    crc32 (([0x31, 0x32, 0x33, 0x34, 0x35, 0x36, 0x37, 0x38, 0x39] : List Nat).map (BitVec.ofNat 8)) =
      0xCBF43926#32 := by decide +kernel

/-! ## One step of each command -/

theorem test_power_on_reset_samples_straps :
    seen (.powerOnReset 5) serving (fun t => (t.upl.station, t.upl.straps, t.inReset, t.dlb.service)) =
      some (0x0A4E56248005#48, 5, true, .unconfigured) := by decide +kernel
theorem test_pin_reset_keeps_dies :
    seen (.pinReset 0) serving (fun t => ((t.dlb.slots[(0 : Fin 8)]).state, (t.dlb.slots[(0 : Fin 8)]).record.entry.scrapLimit)) =
      some (.ready, 40) := by decide +kernel
theorem test_soft_reset_waits_until_due : seen .softReset serving (·.inReset) = some false := by decide +kernel
theorem test_soft_reset_keeps_geometry :
    seen .softReset { serving with mga := { serving.mga with reset := .due } }
      (fun t => (t.inReset, t.dlb.service, t.lmp.geometry.isSome)) = some (true, .idle, true) := by decide +kernel
theorem test_reset_end_samples_the_encoder :
    seen .resetEnd { State.reset with inReset := true, pins := { State.reset.pins with enc := ⟨true, false⟩ } }
      (fun t => (t.inReset, t.pos.phase)) = some (false, ⟨true, false⟩) := by decide +kernel

theorem test_scan_frame_is_held :
    seen (.headFrameReceive 0 (scan 0 0 1 1)) (headed .measure) (fun t =>
      (t.pool.held.map fun f => (f.ptu, f.tmu, f.inQueueD), (t.ctb.ports[(0 : Fin 9)]).toList.take 2,
        (t.ports[(0 : Fin 8)]).learned)) =
      some ([(true, false, false)], [1, 1], some 0x020000000007#48) := by decide +kernel
theorem test_temp_frame_is_held :
    seen (.headFrameReceive 0 (temp 0 1 0x0B 0xB8)) (inRole .pyro) (fun t =>
      t.pool.held.map fun f => (f.ptu, f.tmu, f.inQueueD)) = some [(false, true, false)] := by decide +kernel
theorem test_notice_start_counts_hold :
    seen (.noticeSendStart 0) ((inRole .head).modPort 0 fun x => { x with notice := some .hold }) (fun t =>
      ((t.ports[(0 : Fin 8)]).notice, (t.ports[(0 : Fin 8)]).transmitting.isSome,
        (t.ctb.ports[(0 : Fin 9)])[(5 : Fin 11)])) = some (none, true, 1) := by decide +kernel
theorem test_notice_end_idles :
    seen (.noticeSendEnd 7) State.reset (fun t => (t.ports[(7 : Fin 8)]).transmitting) = some none := by decide +kernel
theorem test_identify_frame_waits :
    seen (.uplinkFrameReceive identifyFrame) State.reset (fun t =>
      t.mga.input.map fun r => (r.source, r.tag, r.command, r.args.length)) =
      some [(0x020000000007#48, 9, 1, 0)] := by decide +kernel
theorem test_selection_sends_a_response :
    seen .uplinkSelect { State.reset with egs := { State.reset.egs with a := [response 1] } } (fun t =>
      (t.upl.sending.map fun x => (x.queue, x.bytes.length), t.egs.turnCount)) = some (some (.a, 60), 1) := by
  decide +kernel
theorem test_send_end_makes_reset_due :
    seen .uplinkSendEnd
      { State.reset with
        egs := { State.reset.egs with a := [response 16] }
        upl := { State.reset.upl with sending := some { queue := .a, bytes := [] } }
        mga := { State.reset.mga with reset := .waiting } }
      (fun t => (t.egs.a.length, t.mga.reset, t.pending)) = some (0, .due, [.softReset]) := by decide +kernel
/-- A start time reached at the firing itself is not late: its PULSE_START waits with no time passed (R32). -/
theorem test_pulse_at_the_firing_is_not_late :
    let s : State := { State.reset with
      now := 50, trg := { State.reset.trg with
        outputs := State.reset.trg.outputs.set 0 { phaseDelay := 0, schedule := [50], release := none } } }
    (match step s with
      | .next t => (t.now, t.pending)
      | _ => (0, [])) = (50, [.pulseStart 0]) := by decide +kernel
/-- A notice that may be none is read with its presence byte (R174, item 66). -/
theorem test_pending_notice_is_read :
    (seen .getConfig (asked 3 [0, 66, 0] State.reset) said,
      seen .getConfig (asked 3 [0, 66, 0] (State.reset.modPort 0 fun x => { x with notice := some .resume })) said) =
      (some (some (.ok, [1, 0, 66, 0, 0, 0, 0, 0, 0, 0, 14, 0])),
        some (some (.ok, [1, 0, 66, 0, 0, 0, 0, 0, 1, 1, 0, 14, 0]))) := by decide +kernel

theorem test_forward_count_adds_the_scale :
    seen (.encoderChange true false) State.reset (fun t => (t.pos.acc, t.pos.station)) = some (6554, 0) := by
  decide +kernel
theorem test_reverse_count_subtracts_the_scale :
    seen (.encoderChange false true) State.reset (fun t => (t.pos.acc, t.pos.latch)) = some (-6554, false) := by
  decide +kernel
theorem test_tmin_expiry_fires_the_deferred_trigger :
    seen .tminExpiry { serving with trg := { serving.trg with mode := .time, deferred := true } }
      (fun t => (t.trg.seq, t.trg.deferred, t.trg.timer)) = some (1, false, some 1000) := by decide +kernel
theorem test_period_expiry_fires :
    seen .periodTimerExpiry { serving with trg := { serving.trg with mode := .time, timer := some 0 } }
      (fun t => (t.trg.seq, t.trg.timer)) = some (1, some 1000) := by decide +kernel
theorem test_pulse_start_asserts_for_ten :
    seen (.pulseStart 0) (State.reset.modOutput 0 fun o => { o with schedule := [0, 90] })
      (fun t => ((t.trg.outputs[(0 : Fin 8)]).schedule, (t.trg.outputs[(0 : Fin 8)]).release)) =
      some ([90], some 10) := by decide +kernel
theorem test_pulse_release_at_its_time :
    seen (.pulseRelease 0) (State.reset.modOutput 0 fun o => { o with release := some 0 })
      (fun t => (t.trg.outputs[(0 : Fin 8)]).release) = some none := by decide +kernel

theorem test_fragment_completes_its_slot :
    seen .fragmentTake (holding (scan 0 0 1 1) collecting) (fun t =>
      ((t.sau.slots[(0 : Fin 16)]).state, t.pool.held.length, (t.ctb.heads[(0 : Fin 16)])[(0 : Fin 7)])) =
      some (.evaluating, 0, 1) := by decide +kernel
theorem test_deadline_counts_a_miss :
    seen (.slotDeadlineExpiry 0) { collecting with now := 2000 } (fun t =>
      ((t.sau.slots[(0 : Fin 16)]).state, (t.heads[(0 : Fin 16)]).missRun)) = some (.evaluating, 1) := by
  decide +kernel
theorem test_evaluation_frees_the_slot :
    seen .evaluationComplete
      { collecting.modSlot 0 fun x => { x with state := .evaluating } with gev := { queue := [], current := some (0, false) } }
      (fun t => ((t.sau.slots[(0 : Fin 16)]).state, t.gev.current)) = some (.free, none) := by decide +kernel
theorem test_reading_is_fresh_for_the_hold_time :
    seen .tmuTakeTemp
      { inRole .pyro with
        pool := { State.reset.pool with
          held := [{ port := 0, bytes := (temp 2 1 0x0B 0xB8).bytes, ptu := false, tmu := true, queueD := .none }] } }
      (fun t => (t.tmu.strands[(2 : Fin 4)], t.pool.held.length)) = some (.fresh 3000 0 500000, 0) := by
  decide +kernel
theorem test_temp_expiry_makes_stale :
    seen (.tempExpiry 0) { serving with tmu := { serving.tmu with strands := serving.tmu.strands.set 0 (.fresh 5 0 0) } }
      (fun t => (t.tmu.strands[(0 : Fin 4)], t.mga.alarms)) = some (.stale 5 0, 8) := by decide +kernel
theorem test_stillness_disarms :
    seen .stillnessExpiry { serving with now := 1500000 } (fun t => (t.emu.stillness, t.egs.b.length)) =
      some (.disarmed 0, 1) := by decide +kernel
theorem test_line_change_starts_a_candidate :
    seen (.eventLineChange .billet true) State.reset (fun t => (t.pins.billet, (t.emu.lines[(0 : Fin 4)]).candidate)) =
      some (true, some ⟨0, 50⟩) := by decide +kernel
theorem test_filter_expiry_takes_the_weld :
    seen (.filterTimeExpiry .billet)
      { State.reset with emu := { State.reset.emu with
          lines := upd State.reset.emu.lines 0 fun x => { x with candidate := some ⟨0, 0⟩ } } }
      (fun t => ((t.emu.lines[(0 : Fin 4)]).level, t.ctb.global[(4 : Fin 18)], t.egs.b.length)) =
      some (true, 1, 1) := by decide +kernel
theorem test_gate_release :
    seen (.gateRelease 3) (State.reset.modPieces 3 fun p => { p with gate := some 0 })
      (fun t => (t.pcu.strands[(3 : Fin 4)]).gate) = some none := by decide +kernel

theorem test_identify :
    seen .identify (asked 1 [] State.reset) said =
      some (some (.ok, [9, 0xB0, 1, 0, 0x0A, 0x4E, 0x56, 0x24, 0x80, 0, 0, 0, 0])) := by decide +kernel
theorem test_get_config_of_the_scale :
    seen .getConfig (asked 3 [0, 18, 0] State.reset) said =
      some (some (.ok, [1, 0, 18, 0, 0, 0, 0, 0, 0, 0, 0, 0x19, 0x9A])) := by decide +kernel
theorem test_set_geometry :
    seen .setGeometry (asked 4 [0, 200, 0, 0, 3, 232, 0, 0, 2, 88] State.reset)
      (fun t => (t.lmp.geometry, t.dlb.service)) = some (some geometry0, .idle) := by decide +kernel
theorem test_set_head_state :
    seen .setHeadState (asked 5 [15, 2] State.reset) (fun t => (t.heads[(15 : Fin 16)]).state) = some .measure := by
  decide +kernel
theorem test_table_open_loads_the_slot :
    seen .tableOpen (asked 6 [3, 7, 1, 0, 0, 4] State.reset)
      (fun t => ((t.dlb.slots[(7 : Fin 8)]).state, t.mga.window.last)) = some (.loading, 4) := by
  decide +kernel
theorem test_table_data_needs_a_window :
    seen .tableData (asked 7 [] State.reset) said = some (some (.state, [])) := by decide +kernel
theorem test_table_read_of_an_unfilled_curve :
    seen .tableRead (asked 8 [2, 0, 0, 0, 32, 32] State.reset) said =
      some (some (.ok, [0, 1] ++ List.replicate 40 0)) := by decide +kernel
theorem test_select_die_inspects :
    seen .selectDie (asked 9 [1] (withDie 1 .ready idle))
      (fun t => (t.dlb.service, (t.lmp.rings[(0 : Fin 4)]).length)) = some (.inspecting, 9) := by decide +kernel
theorem test_deactivate_idles :
    seen .deactivate (asked 10 [] serving) (fun t => (t.dlb.service, t.emu.stillness)) = some (.idle, .halted) := by
  decide +kernel
theorem test_flush_rebuilds_the_ring :
    seen .flush (asked 11 [] serving) (fun t => (t.lmp.rings[(0 : Fin 4)]).map (·.1)) =
      some [0, 1, 2, 3, 4, 5, 6, 7, 8] := by decide +kernel
theorem test_read_cells_of_an_empty_slot :
    seen .readCells (asked 12 [0, 0, 0, 0, 2, 1] serving) said =
      some (some (.ok, [1, 2, 0, 0, 0, 8, 0, 0, 0, 3, 0, 0, 0, 0])) := by decide +kernel
theorem test_read_pieces_without_pieces :
    seen .readPieces (asked 13 [3, 0] serving) said = some (some (.ok, [0, 0, 0, 1, 0, 0, 0, 0])) := by decide +kernel
theorem test_read_counters_of_a_head :
    seen .read (asked 14 [0, 1, 15] State.reset) said = some (some (.ok, 1 :: List.replicate 28 0)) := by decide +kernel
theorem test_freeze_answers_frozen :
    seen .freeze (asked 14 [4, 0, 0] State.reset) (fun t => (t.ctb.frozen, said t)) = some (true, some (.ok, [0])) := by
  decide +kernel
theorem test_frozen_refuses_clear_all :
    seen .clearAll (asked 14 [3, 0, 0] { State.reset with ctb := { State.reset.ctb with frozen := true } }) said =
      some (some (.state, [])) := by decide +kernel
theorem test_clear_alarms_returns_them :
    seen .clearAlarms (asked 15 [] { State.reset with mga := { State.reset.mga with alarms := 0x104 } })
      (fun t => (said t, t.mga.alarms)) = some (some (.ok, [1, 4]), 0) := by decide +kernel
theorem test_reset_waits_for_its_response :
    seen .reset (asked 16 [] State.reset) (·.mga.reset) = some .waiting := by decide +kernel
theorem test_bad_command :
    seen .badCommand (asked 17 [1, 2] State.reset) said = some (some (.badCommand, [])) := by decide +kernel

theorem test_role_from_off_raises_resume :
    seen .writePortRole (setting 1 0 (small 0) State.reset)
      (fun t => ((t.ports[(0 : Fin 8)]).role, (t.ports[(0 : Fin 8)]).notice)) = some (.head, some .resume) := by
  decide +kernel
theorem test_decimation_clamps :
    seen .writeDecimationFactor (setting 6 0 (small 99) State.reset) (fun t => (t.ports[(0 : Fin 8)]).decimation) =
      some 16 := by decide +kernel
theorem test_reserve_sum_is_checked :
    seen .writeReserve (setting 7 0 (small 255) (State.reset.modPort 1 fun x => { x with reserve := 1152 })) said =
      some (some (.badValue, [1, 0, 7, 0, 3, 0, 0, 0, 0, 0, 0, 0, 64])) := by decide +kernel
theorem test_high_mark_stays_above_low :
    seen .writeWaterMark (setting 8 0 (small 5) State.reset) (fun t => (t.ports[(0 : Fin 8)]).high) = some 97 := by
  decide +kernel
theorem test_mirror_source_eight_is_none :
    seen .writeMirrorSource (setting 11 0 (small 8) { State.reset with mirror := some 3 }) (·.mirror) = some none := by
  decide +kernel
theorem test_group_station_address_is_refused :
    seen .writeStationAddress (setting 13 0 [0, 0, 1, 0, 0, 0, 0, 1] State.reset) (fun t => t.upl.station) =
      some 0x0A4E56248000#48 := by decide +kernel
theorem test_frame_type_below_0600h_is_refused :
    seen .writeFrameTypeValue (setting 16 0 (small 0x5FF) State.reset) (fun t => t.upl.frameType) =
      some 0x9C61#16 := by decide +kernel
theorem test_reverse_limit_raises_the_accumulator :
    seen .writeReverseLimit (setting 19 0 (small 1) { State.reset with pos := { State.reset.pos with acc := -200000 } })
      (fun t => t.pos.acc) = some (-65536) := by decide +kernel
theorem test_trigger_mode_arms :
    seen .writeTriggerMode (setting 20 0 (small 2) serving) (fun t => t.trg.timer) = some (some 1000) := by
  decide +kernel
theorem test_pitch_fires_at_once :
    seen .writePitch (setting 21 0 (small 10)
      { serving with trg := { serving.trg with mode := .pitch }, pos := { serving.pos with station := 35 } })
      (fun t => (t.trg.grid, t.trg.seq, t.ctb.global[(1 : Fin 18)])) = some (30, 1, 2) := by decide +kernel
theorem test_tmin_raises_the_period :
    seen .writeTmin (setting 22 0 (small 2000) State.reset) (fun t => (t.trg.tmin, t.trg.period)) =
      some (2000, 2000) := by decide +kernel
theorem test_period_is_at_least_tmin :
    seen .writeTp (setting 23 0 (small 1) State.reset) (·.trg.period) = some 250 := by decide +kernel
theorem test_binding_first_binds_the_writer :
    seen .writeBindingMode (setting 37 0 (small 1) State.reset) (·.mga.bound) = some (some 0x020000000001#48) := by
  decide +kernel
theorem test_fixed_address_zero_is_refused :
    seen .writeFixedAddress (setting 38 0 (small 0) State.reset) said =
      some (some (.badValue, [1, 0, 38, 0, 3, 0, 0, 0, 0, 0, 0, 0, 0])) := by decide +kernel
theorem test_head_filter_is_stored :
    seen .writeConfigItem (setting 39 1 [0, 0, 0, 0, 0, 0, 1, 15] State.reset) (·.ctb.filters[(1 : Fin 2)]) =
      some ⟨true, 15⟩ := by decide +kernel

/-! ## States that meet the hypotheses of the obligations -/

theorem test_hypotheses_front_command :
    { State.reset with pending := [.uplinkSelect, .softReset] }.pending = .uplinkSelect :: [.softReset] := by
  decide +kernel

/-- Every timer of the idle step running, at the present time. -/
def timed : State :=
  { State.reset with
    now := 1000
    tmu := { State.reset.tmu with strands := State.reset.tmu.strands.set 3 (.fresh 500 0 1000) }
    trg := { State.reset.trg with
      outputs := State.reset.trg.outputs.set 7 { phaseDelay := 0, schedule := [1000, 1001], release := some 1000 } }
    pcu := { State.reset.pcu with
      strands := upd State.reset.pcu.strands 3 fun p => { p with gate := some 1000 } }
    emu := { State.reset.emu with
      stillness := .running 1000
      lines := upd State.reset.emu.lines 3 fun x => { x with candidate := some ⟨950, 50⟩ } } }

theorem test_hypotheses_idle_step :
    State.reset.pending = [] ∧ timed.pending = [] ∧ timed.tmu.strands[(3 : Fin 4)] = .fresh 500 0 1000 ∧
      (timed.trg.outputs[(7 : Fin 8)]).schedule = 1000 :: [1001] ∧
      (timed.trg.outputs[(7 : Fin 8)]).release = some 1000 ∧ (timed.pcu.strands[(3 : Fin 4)]).gate = some 1000 ∧
      timed.emu.stillness = .running 1000 ∧
      (timed.emu.lines[lineIndex .saw]).candidate = some ⟨950, 50⟩ ∧
      dueCommands timed =
        [.filterTimeExpiry .saw, .stillnessExpiry, .tempExpiry 3, .pulseStart 7, .pulseRelease 7, .gateRelease 3] := by
  decide +kernel
theorem test_hypotheses_idle_step_triggers :
    let t (m : TriggerMode) : State :=
      { serving with now := 250, trg := { serving.trg with mode := m, deferred := true, timer := some 250 } }
    let r : State := { timed with mga := { timed.mga with reset := .due } }
    dueCommands State.reset = [] ∧ dueCommands timed ≠ [] ∧ r.mga.reset = .due ∧ r.inReset = false ∧
      dueCommands (t .time) = [.tminExpiry, .periodTimerExpiry] ∧ dueCommands (t .off) = [] ∧
      (t .time).dlb.service = .inspecting ∧ (t .time).trg.timer = some 250 := by decide +kernel

theorem test_hypotheses_soft_reset :
    let s : State := { serving with mga := { serving.mga with reset := .due } }
    s.mga.reset = .due ∧ s.inReset = false := by decide +kernel

/-- A completed piece with nothing in it. -/
def piece0 (sent : Bool) : LogEntry :=
  { completed := { strand := 0, verdict := .accept, number := 1, piece := Piece.new 0 }, sent := sent }

theorem test_hypotheses_reset_end :
    let s : State := { State.reset with inReset := true, pcu := { State.reset.pcu with log := [piece0 true] } }
    s.inReset = true ∧ (∀ e ∈ s.pcu.log, e.sent = true) := by decide +kernel
theorem test_hypotheses_reset_end_backlog :
    let v (n : Nat) : State := queuePieceReports { State.reset with
      pcu := { State.reset.pcu with log := [piece0 true, piece0 false] }
      egs := { State.reset.egs with b := List.replicate n (response 1) } }
    (v 32).pcu.log.find? (fun x => !x.sent) = some (piece0 false) ∧ (∀ e ∈ (v 31).pcu.log, e.sent = true) := by
  decide +kernel

theorem test_hypotheses_every_reset :
    let s : State := { withDie 7 .loading serving with mga := { serving.mga with reset := .due } }
    (Instr.softReset ≠ .powerOnReset 0 ∧ s.mga.reset = .due ∧ s.inReset = false) ∧
      (s.dlb.slots[(7 : Fin 8)]).state = .loading ∧ Instr.powerOnReset 0 ≠ .softReset ∧
      Instr.pinReset 0 ≠ .powerOnReset 0 := by decide +kernel

/-- Zero bytes of a length. -/
def blanks (n : Nat) : Frame := { bytes := List.replicate n 0, fcs := 0 }

theorem test_hypotheses_unsound_frames :
    (framed []).fcs + 1 ≠ crc32 (framed []).bytes ∧ (blanks 59).bytes.length < 60 ∧
      1536 < (blanks 1537).bytes.length ∧ { State.reset with inReset := true }.inReset = true := by decide +kernel
theorem test_hypotheses_frame_layouts :
    let bs := (scan 15 1 2 1).bytes
    natAt bs 18 1 ≤ 15 ∧ soundScan 0x9C61 bs = true ∧ soundTemp 0x9C61 (temp 3 1 0 0).bytes = true ∧
      58 + 1 < bs.length ∧ 58 + 2 ≤ bs.length ∧ intAt [255, 254] 0 2 = -2 ∧ intAt [127, 255] 0 2 = 32767 ∧
      headFields ([3, 0, 1, 255, 255] ++ List.replicate 35 0) =
        { strand := 3, cosine := 1, sine := -1, x0 := 0, y0 := 0, minQuality := 0 } := by decide +kernel
theorem test_hypotheses_arrives :
    Arrives State.reset (framed []) ∧ (framed []).bytes.length = 60 ∧
      (blanks 1536).bytes.length = 1536 ∧
      (State.reset.ports[(0 : Fin 8)]).role = .off := by decide +kernel
theorem test_hypotheses_admit_mismatch :
    let s := (headed .measure).modPort 0 fun x => { x with admission := .matchId }
    let f := scan 1 0 1 1
    Arrives s f ∧ (s.ports[(0 : Fin 8)]).role = .head ∧ soundScan s.upl.frameType f.bytes = true ∧
      (s.ports[(0 : Fin 8)]).admission = .matchId ∧
      scanHead f.bytes ≠ (s.ports[(0 : Fin 8)]).defaultHead.val := by decide +kernel
theorem test_hypotheses_head_off :
    let s := headed .off
    let f := scan 0 0 1 1
    Arrives s f ∧ soundScan s.upl.frameType f.bytes = true ∧ storedScan s 0 f.bytes = some (f.bytes, false) ∧
      (s.heads[admittedHead f.bytes]).state = .off := by decide +kernel
theorem test_hypotheses_stamped_scan :
    let s := (headed .measure).modPort 0 fun x => { x with admission := .stamp }
    storedScan s 0 (scan 15 0 1 1).bytes = some ((scan 0 0 1 1).bytes, true) := by decide +kernel
theorem test_hypotheses_stamps :
    let s (m : Nat) : State := { serving with pos := { serving.pos with station := m } }
    let far : State := { serving with lmp := { serving.lmp with geometry := some { geometry0 with origin := 1 } } }
    (s 799).lmp.geometry = some geometry0 ∧ (s 799).dlb.service ≠ .unconfigured ∧ 0 < geometry0.cellLength ∧
      ((s 799).heads[(0 : Fin 16)]).written = false ∧ (stampOf 0 true (s 799)).cell = 6 ∧
      (stampOf 0 true (s 799)).residue = 199 ∧ (stampOf 0 true (s 800)).cell = 7 ∧ (stampOf 0 true (s 800)).residue = 0 ∧
      (stampOf 0 false far).cell = 0xFFFFFFFF ∧ (stampOf 0 false far).residue = 199 ∧ State.reset.lmp.geometry = none ∧
      State.reset.dlb.service = .unconfigured ∧
      (((headed .measure).modHead 0 fun h => { h with written := true }).heads[(0 : Fin 16)]).written = true := by
  decide +kernel
theorem test_hypotheses_dropped_non_scan :
    let s := inRole .head
    Arrives s (framed []) ∧ nonScanOn s 0 (framed []).bytes = true ∧ s.mirror ≠ some 0 ∧
      (s.ports[(0 : Fin 8)]).nonScan = .drop := by decide +kernel

/-- The frame of an admitted SCAN frame on port 0, as the statement makes it. -/
def scanFrame (s : State) (f : Frame) : HeldFrame :=
  { port := 0, bytes := f.bytes, ptu := decide ((s.heads[admittedHead f.bytes]).state ≠ .listen), tmu := false,
    queueD := scanEntry 0 (admittedHead f.bytes) false (learnt 0 f s) }

theorem test_hypotheses_granted_scan :
    let s := headed .measure
    let f := scan 0 0 1 1
    Arrives s f ∧ (s.ports[(0 : Fin 8)]).role = .head ∧ soundScan s.upl.frameType f.bytes = true ∧
      storedScan s 0 f.bytes = some (f.bytes, false) ∧ (s.heads[admittedHead f.bytes]).state ≠ .off ∧
      (scanFrame s f).isHeld = true ∧ grantFits 0 (ceilDiv f.bytes.length 128) (learnt 0 f s) = true := by
  decide +kernel

/-- headed, with no reserve anywhere that fits a frame: the seven other ports hold every block. -/
def full : State :=
  { State.reset with
    ports := (headed .measure).ports.map fun x => { x with reserve := 0 }
    heads := (headed .measure).heads
    pool := { held := List.replicate 16
                { port := 1, bytes := List.replicate 32768 0, ptu := false, tmu := true, queueD := .none },
              evictionLevel := 0 } }

theorem test_hypotheses_refused_scan :
    let f := scan 0 0 1 1
    Arrives full f ∧ (full.ports[(0 : Fin 8)]).role = .head ∧ soundScan full.upl.frameType f.bytes = true ∧
      storedScan full 0 f.bytes = some (f.bytes, false) ∧ (full.heads[admittedHead f.bytes]).state ≠ .off ∧
      (scanFrame full f).isHeld = true ∧ grantFits 0 (ceilDiv f.bytes.length 128) (learnt 0 f full) = false := by
  decide +kernel
theorem test_hypotheses_grants :
    let s : State := { full with pool := { full.pool with held := full.pool.held.take 15 } }
    PoolLaw State.reset ∧ freeShared State.reset = 3584 ∧ grantFits 0 (64 + 3584) State.reset = true ∧
      grantFits 0 (64 + 3585) State.reset = false ∧ PoolLaw full ∧ freeShared full = 0 ∧ grantFits 0 1 full = false ∧
      PoolLaw s ∧ freeShared s = 256 ∧ grantFits 1 256 s = true ∧ grantFits 1 257 s = false ∧
      useCount ([] ++ [{ queuedRaw with bytes := List.replicate 129 0 }]) 0 = 2 := by decide +kernel
theorem test_hypotheses_unheld_scan :
    let s := headed .listen
    let f := scan 0 0 1 1
    Arrives s f ∧ (s.ports[(0 : Fin 8)]).role = .head ∧ soundScan s.upl.frameType f.bytes = true ∧
      storedScan s 0 f.bytes = some (f.bytes, false) ∧ (s.heads[admittedHead f.bytes]).state ≠ .off ∧
      (scanFrame s f).isHeld = false := by decide +kernel
theorem test_hypotheses_forwarding :
    let s (m : ForwardMode) (n : Nat) : State :=
      (headed .listen).modPort 0 fun x => { x with forwardMode := m, counter := n }
    { headed .listen with mirror := some 0 }.mirror = some 0 ∧ (s .all 0).mirror ≠ some 0 ∧
      ((s .off 0).ports[(0 : Fin 8)]).forwardMode = .off ∧ ((s .all 0).ports[(0 : Fin 8)]).forwardMode = .all ∧
      ((s .decimated 3).ports[(0 : Fin 8)]).counter + 1 = ((s .decimated 3).ports[(0 : Fin 8)]).decimation ∧
      ((s .decimated 2).ports[(0 : Fin 8)]).counter + 1 ≠ ((s .decimated 2).ports[(0 : Fin 8)]).decimation ∧
      ((s .decimated 2).ports[(0 : Fin 8)]).forwardMode = .decimated := by decide +kernel

theorem test_hypotheses_temp_frame :
    Arrives (inRole .pyro) (temp 3 1 0 0) ∧ ((inRole .pyro).ports[(0 : Fin 8)]).role = .pyro ∧
      soundTemp (inRole .pyro).upl.frameType (temp 3 1 0 0).bytes = true ∧
      soundTemp (inRole .pyro).upl.frameType (temp 4 1 0 0).bytes = false := by decide +kernel
theorem test_hypotheses_raw_frame :
    let s := (inRole .head).modPort 0 fun x => { x with nonScan := .uplink }
    Arrives s (framed []) ∧ nonScanOn s 0 (framed []).bytes = true ∧ (s.ports[(0 : Fin 8)]).nonScan = .uplink ∧
      { s with mirror := some 0 }.mirror = some 0 := by decide +kernel

theorem test_hypotheses_eviction :
    State.reset.pool.evictionLevel ≤ freeShared State.reset ∧
      { State.reset.pool with evictionLevel := 1024 }.evictionLevel ≤ freeShared State.reset ∧
      freeShared { full with pool := { full.pool with evictionLevel := 1 } } < 1 := by decide +kernel
theorem test_hypotheses_oldest_entry :
    let other : HeldFrame := { queuedRaw with queueD := .none, ptu := true }
    let s : State := { full with
      pool := { held := full.pool.held ++ queuedRaw :: [{ queuedRaw with ptu := true }], evictionLevel := 1 } }
    (∀ x ∈ full.pool.held, x.inQueueD = false) ∧ queuedRaw.inQueueD = true ∧ freeShared s < s.pool.evictionLevel ∧
      (queuedRaw.ptu = false ∧ queuedRaw.tmu = false) ∧ other.ptu = true ∧ other.inQueueD = false := by decide +kernel

theorem test_hypotheses_notices :
    let s := (inRole .head).modPort 7 fun x => { x with notice := some .resume }
    let t := s.modPort 7 fun x => { x with transmitting := some { notice := .hold, bytes := [] } }
    (s.ports[(7 : Fin 8)]).notice = some .resume ∧ (s.ports[(7 : Fin 8)]).transmitting = none ∧ s.inReset = false ∧
      (t.ports[(7 : Fin 8)]).transmitting ≠ none ∧ (s.ports[(0 : Fin 8)]).notice = none := by decide +kernel

/-- The request test of the statement on a frame's bytes. -/
abbrev isFor (s : State) (b : List Byte) : Prop :=
  natAt b 0 6 = s.upl.station.toNat ∧ natAt b 12 2 = s.upl.frameType.toNat ∧ natAt b 14 1 = 1 ∧ 7 ≤ natAt b 16 2 ∧
    natAt b 16 2 + 14 ≤ b.length ∧ natAt b 15 1 = 4

theorem test_hypotheses_uplink_request :
    let s (n : Nat) : State := { State.reset with mga := { State.reset.mga with input := List.replicate n (reqOf 1 []) } }
    Arrives State.reset identifyFrame ∧ isFor State.reset identifyFrame.bytes ∧ (s 3).mga.input.length < 4 ∧
      4 ≤ (s 4).mga.input.length ∧ Arrives (s 4) identifyFrame ∧
      isFor State.reset (framed (header ++ [4, 0, 46])).bytes ∧ ¬ isFor State.reset (framed (header ++ [4, 0, 47])).bytes ∧
      ¬ isFor State.reset (framed (header ++ [4, 0, 6])).bytes := by decide +kernel

/-- Frames in the egress queues, under a scheduling mode. -/
def loaded (m : SchedMode) (a b c d : Nat) : State :=
  { State.reset with
    egs := { State.reset.egs with
      mode := m, a := List.replicate a (response 1), b := List.replicate b (response 1)
      c := List.replicate c (response 1) }
    pool := { State.reset.pool with held := List.replicate d queuedRaw } }

theorem test_hypotheses_strict :
    (loaded .strict 1 1 1 1).inReset = false ∧ (loaded .strict 1 1 1 1).upl.sending = none ∧
      (loaded .strict 1 1 1 1).egs.mode = .strict ∧ (loaded .strict 1 0 0 0).egs.a = [response 1] ∧
      (loaded .strict 0 1 1 1).egs.a = [] ∧ (loaded .strict 0 1 1 1).egs.b = [response 1] ∧
      (loaded .strict 0 0 1 1).egs.b = [] ∧ (loaded .strict 0 0 1 1).egs.c = [response 1] ∧
      (loaded .strict 0 0 0 1).egs.c = [] := by decide +kernel
theorem test_hypotheses_quota :
    let s := loaded .quota 1 1 1 1
    let spent (s : State) : State := { s with egs := { s.egs with turnCount := 6 } }
    s.inReset = false ∧ s.upl.sending = none ∧ s.egs.mode = .quota ∧ (∀ q : Fin 4, 1 ≤ s.egs.quotas[q]) ∧
      (queueHolds s .a = true ∧ 5 < s.egs.quotas[QueueId.a.index]) ∧
      ¬ ((spent s).egs.turnCount < (spent s).egs.quotas[QueueId.a.index]) ∧ queueHolds (spent s) .b = true ∧
      queueHolds (loaded .quota 0 0 1 0) .b = false ∧ queueHolds (loaded .quota 0 0 1 0) .c = true ∧
      queueHolds (loaded .quota 0 0 0 1) .c = false ∧ queueHolds (loaded .quota 0 0 0 1) .d = true ∧
      queueHolds (spent (loaded .quota 1 0 0 0)) .d = false ∧ queueHolds (spent (loaded .quota 1 0 0 0)) .a = true := by
  decide +kernel

/-- A FORWARD entry of queue D. -/
def stamp0 : Stamp :=
  { strand := 0, cell := 0, residue := 0, station := 0, mapValid := false, inspecting := false, headStamped := false }

theorem test_hypotheses_sending :
    (loaded .quota 1 1 1 0).egs.a = response 1 :: [] ∧ (loaded .quota 1 1 1 0).egs.b = response 1 :: [] ∧
      (loaded .quota 1 1 1 0).egs.c = response 1 :: [] ∧
      [{ queuedRaw with queueD := .none, ptu := true }].all (fun x => !x.inQueueD) = true ∧
      queuedRaw.queueD = .queued .raw ∧
      { queuedRaw with queueD := .queued (.forward stamp0) }.queueD = .queued (.forward stamp0) := by decide +kernel
theorem test_hypotheses_frame_bytes :
    let alarm : OutFrame := { frameType := 0x9C61, source := 1, dest := none,
                              content := .alarm { kind := .sawOverrun, subject := 0, raised := 0x120 } }
    (outBytes 0xFFFFFFFFFFFF (response 1)).take 22 =
        [2, 0, 0, 0, 0, 1, 0x0A, 0x4E, 0x56, 0x24, 0x80, 0, 0x9C, 0x61, 1, 5, 0, 8, 0, 9, 1, 0] ∧
      (outBytes 0xFFFFFFFFFFFF alarm).take 23 =
        [255, 255, 255, 255, 255, 255, 0, 0, 0, 0, 0, 1, 0x9C, 0x61, 1, 6, 0, 9, 4, 6, 0, 1, 0x20] ∧
      (outBytes 0 alarm).length = 60 ∧ (noticeBytes 0 0 0x9C61 .hold).drop 12 =
        [0x9C, 0x61, 1, 3, 0, 5, 1] ++ List.replicate 41 0 := by decide +kernel
theorem test_hypotheses_forwarded_bytes :
    let bs : List Byte := (scan 0 0 1 1).bytes
    bs[16]? = some 0 ∧ bs[17]? = some 16 ∧ 14 + (256 * 0 + 16) ≤ bs.length ∧
      (forwardBytes 1 2 { stamp0 with headStamped := true, inspecting := true } bs).length = 14 + 16 + 12 ∧
      ((forwardBytes 1 2 { stamp0 with headStamped := true, inspecting := true } bs)[31]?) = some 6 := by decide +kernel
theorem test_hypotheses_last_holder :
    let letGo (f : HeldFrame) : HeldFrame := { f with ptu := false }
    let both : HeldFrame := { queuedRaw with ptu := true }
    let alone : HeldFrame := { both with queueD := .none }
    [queuedRaw].all (fun x => !x.ptu) = true ∧ both.ptu = true ∧ (letGo both).queueD ≠ .none ∧ alone.ptu = true ∧
      (letGo alone).ptu = false ∧ (letGo alone).tmu = false ∧ (letGo alone).queueD = .none ∧
      State.reset.pool.held.all (fun x => !x.ptu) = true := by decide +kernel
theorem test_hypotheses_send_end :
    let s (q : QueueId) : State := { loaded .quota 1 32 1 1 with upl := { State.reset.upl with sending := some ⟨q, []⟩ } }
    (s .a).upl.sending = some ⟨.a, []⟩ ∧ (s .a).egs.a = response 1 :: [] ∧ (s .b).upl.sending = some ⟨.b, []⟩ ∧
      (s .c).upl.sending = some ⟨.c, []⟩ ∧ (s .d).upl.sending = some ⟨.d, []⟩ ∧ (s .b).egs.b.length ≤ 32 := by
  decide +kernel

/-- After reset, with M and S. -/
def placed (station : Nat) (acc : Int) (scale : Nat) : State :=
  { State.reset with pos := { State.reset.pos with station := station, acc := acc, scale := scale } }

theorem test_hypotheses_forward_counts :
    let last := 2 ^ 48 - 1
    StepsForward State.reset ⟨true, false⟩ ∧
      StepsForward { State.reset with pos := { State.reset.pos with sense := .inverted } } ⟨false, true⟩ ∧
      (placed 0 65535 1).pos.acc ≤ 65535 ∧ (placed last 65535 1).pos.station ≤ last ∧
      (65534 : Int) + 1 < 65536 ∧ (65536 : Int) ≤ 65535 + 1 ∧
      (last - 1) + (((65535 : Int) + 1) / 65536).toNat ≤ last ∧
      last < (last - 1) + (((65535 : Int) + 65537) / 65536).toNat ∧ last - 1 < last := by decide +kernel
theorem test_hypotheses_reverse_counts :
    let low : Int := -((500 : Nat) * 65536)
    State.reset.inReset = false ∧ StepsBack State.reset ⟨false, true⟩ ∧
      max low ((placed 0 (low + 1) 1).pos.acc - 1) = low ∧ State.reset.pos.latch = false ∧
      max low ((placed 0 (low + 2) 1).pos.acc - 1) ≠ low ∧
      ¬ StepsForward State.reset ⟨true, true⟩ ∧ ¬ StepsBack State.reset ⟨true, true⟩ ∧
      ¬ StepsForward State.reset ⟨false, false⟩ ∧ ¬ StepsBack State.reset ⟨false, false⟩ := by decide +kernel

theorem test_hypotheses_stillness :
    let s (e : Stillness) : State := { serving with emu := { serving.emu with stillness := e }, now := 10 }
    (s .halted).emu.stillness = .halted ∧ (s (.running 10)).emu.stillness = .running 10 ∧
      (s (.disarmed 0)).emu.stillness = .disarmed 0 ∧ (s (.disarmed 0)).lmp.geometry = some geometry0 ∧
      (10 : Nat) ≤ (s (.running 10)).now := by decide +kernel
theorem test_hypotheses_stillness_not_expired :
    ∀ e, ({ serving with now := 1499999 } : State).emu.stillness = .running e → 1499999 < e := by
  intro e h
  have : ({ serving with now := 1499999 } : State).emu.stillness = .running 1500000 := by decide +kernel
  rw [this] at h
  injection h with h
  omega

/-- After reset at time 10, output 0 with a schedule and a release time. -/
def pulsing (schedule : List Nat) (release : Option Nat) : State :=
  { State.reset.modOutput 0 fun o => { o with schedule := schedule, release := release } with now := 10 }

theorem test_hypotheses_pulses :
    ((pulsing [10, 20] none).trg.outputs[(0 : Fin 8)]).schedule = 10 :: [20] ∧ 10 ≤ (pulsing [10, 20] none).now ∧
      ((pulsing [] (some 10)).trg.outputs[(0 : Fin 8)]).release = some 10 := by decide +kernel
theorem test_hypotheses_pulses_not_reached :
    (∀ start later, ((pulsing [11] (some 11)).trg.outputs[(0 : Fin 8)]).schedule = start :: later → 10 < start) ∧
      (∀ time, ((pulsing [11] (some 11)).trg.outputs[(0 : Fin 8)]).release = some time → 10 < time) := by
  have h1 : ((pulsing [11] (some 11)).trg.outputs[(0 : Fin 8)]).schedule = [11] := by decide +kernel
  have h2 : ((pulsing [11] (some 11)).trg.outputs[(0 : Fin 8)]).release = some 11 := by decide +kernel
  refine ⟨fun start later h => ?_, fun time h => ?_⟩
  · rw [h1] at h; injection h with h _; omega
  · rw [h2] at h; injection h with h; omega

/-- serving in a trigger mode, at M, with a deferred trigger or not and a last trigger at time 0. -/
def armed (m : TriggerMode) (station now : Nat) (deferred : Bool) : State :=
  { serving with
    now := now
    pos := { serving.pos with station := station }
    trg := { serving.trg with mode := m, deferred := deferred, last := some 0, timer := some 249 } }

theorem test_hypotheses_due_triggers :
    (armed .pitch 20 250 false).dlb.service = .inspecting ∧ (armed .pitch 20 250 false).trg.mode = .pitch ∧
      0 + (armed .pitch 20 250 false).trg.pitch ≤ (armed .pitch 20 250 false).pos.station ∧
      (armed .pitch 20 250 false).trg.deferred = false ∧ Spaced (armed .pitch 20 250 false) ∧
      ¬ Spaced (armed .pitch 20 249 false) ∧ (armed .pitch 20 250 true).trg.deferred = true ∧
      (armed .pitch 19 250 false).pos.station < 0 + (armed .pitch 19 250 false).trg.pitch ∧
      (armed .time 0 249 false).trg.mode = .time ∧ (armed .time 0 249 false).trg.timer = some 249 ∧
      ¬ Spaced (armed .time 0 249 false) ∧ Spaced (armed .time 0 250 true) := by decide +kernel

/-- Every slot held in a state, slot i with number i and open time the distance of i from 5. -/
def held (st : SlotState) (s : State) : State :=
  { s with sau := { s.sau with slots := Vector.ofFn fun i =>
      { Slot.empty with state := st, seq := BitVec.ofNat 16 i.val, openTime := if i.val < 5 then 5 - i.val else i.val - 5 } } }

theorem test_hypotheses_offered_triggers :
    let taken (s : State) (q : BitVec 16) : Prop := ∃ i : Fin 16, (s.sau.slots[i]).state ≠ .free ∧ (s.sau.slots[i]).seq = q
    let c := held .collecting serving
    let o (i : Fin 16) : Nat := (c.sau.slots[i]).openTime
    taken collecting 1 ∧ ¬ taken collecting 2 ∧ (collecting.sau.slots[(1 : Fin 16)]).state = .free ∧
      (∀ j : Fin 16, j < 1 → (collecting.sau.slots[j]).state ≠ .free) ∧
      (∃ h : Fin 16, (collecting.heads[h]).state = .measure) ∧ (¬ ∃ h : Fin 16, (serving.heads[h]).state = .measure) ∧
      serving.lmp.geometry = some geometry0 ∧ (0 : Fin 4) ∈ usedStrands serving ∧ ¬ taken c 16 ∧
      (∀ i : Fin 16, (c.sau.slots[i]).state ≠ .free) ∧
      (∀ i : Fin 16, ((held .evaluating serving).sau.slots[i]).state ≠ .collecting) ∧
      (∀ j : Fin 16, o 5 ≤ o j ∧ (j < 5 → o 5 < o j)) ∧ State.reset.sau.voidList.length < 16 ∧
      ¬ (List.replicate 16 (0 : BitVec 16)).length < 16 := by decide +kernel

/-- collecting, with head 0's participation and contribution in slot 0, its state, and its two runs. -/
def timing (p : Participation) (c : Contribution) (st : HeadState) (runs : Nat) (others : HeadState) : State :=
  let s := modEntry 0 0 (fun e => { e with participation := p, contribution := c }) collecting
  { s with heads := Vector.ofFn fun h =>
      if h = 0 then { s.heads[h] with state := st, missRun := runs, restoreRun := runs } else { s.heads[h] with state := others } }

theorem test_hypotheses_timeliness :
    let e (s : State) := (s.sau.slots[(0 : Fin 16)]).heads[(0 : Fin 16)]
    let x (s : State) := s.heads[(0 : Fin 16)]
    let measured (c : Contribution) (n : Nat) : State := timing .measure c .measure n .off
    let fenced (c : Contribution) (n : Nat) (others : HeadState) : State := timing .fenced c .fenced n others
    (e (measured .complete 3)).participation = .measure ∧ (x (measured .complete 3)).state = .measure ∧
      (e (measured .complete 3)).contribution = .complete ∧ (e (measured .part 3)).contribution ≠ .complete ∧
      min 255 ((x (measured .part 6)).missRun + 1) < (measured .part 6).sau.fenceLimit ∧
      (measured .part 7).sau.fenceLimit ≤ min 255 ((x (measured .part 7)).missRun + 1) ∧
      (e (fenced .part 0 .off)).participation = .fenced ∧ (x (fenced .part 0 .off)).state = .fenced ∧
      (fenced .complete 0 .off).sau.restoreCount ≠ 0 ∧
      min 255 ((x (fenced .complete 30 .off)).restoreRun + 1) < (fenced .complete 30 .off).sau.restoreCount ∧
      (fenced .complete 31 .off).sau.restoreCount ≤ min 255 ((x (fenced .complete 31 .off)).restoreRun + 1) ∧
      (∃ g : Fin 16, g ≠ 0 ∧ ((fenced .complete 31 .fenced).heads[g]).state = .fenced) ∧
      (∀ g : Fin 16, g ≠ 0 → ((fenced .complete 31 .off).heads[g]).state ≠ .fenced) ∧
      (x (timing .measure .part .fenced 0 .off)).state ≠ .measure := by decide +kernel
theorem test_hypotheses_single_closing :
    (closeOne 0 collecting).sau.slots.toList.all (fun x => x.state != .collecting) = true := by decide +kernel

/-- Slot 0 COLLECTING at whose closing head 0 is FENCED, and slots 1 and 2 awaiting head 0 alone, 2 opened first. -/
def chained : State :=
  let s := timing .measure .part .measure 7 .off
  let x := s.sau.slots[(0 : Fin 16)]
  { s with
    sau := { s.sau with slots := (s.sau.slots.set 1 { x with openTime := 5 }).set 2 { x with openTime := 3 } }
    ctb := { s.ctb with filters := .replicate 2 { enabled := true, head := 1 } } }

theorem test_hypotheses_further_closings :
    let u := closeOne 0 chained
    let awaits (x : Slot) : Prop := ∃ h : Fin 16, (x.heads[h]).participation = .measure ∧ (x.heads[h]).released = false ∧
      ((x.heads[h]).contribution = .nothing ∨ (x.heads[h]).contribution = .part)
    (∀ j : Fin 16, j ∈ ([2, 1] : List (Fin 16)) ↔
      (u.sau.slots[j]).state = .collecting ∧ ¬ awaits (u.sau.slots[j]) ∧ j ∉ ([] : List (Fin 16))) ∧
      (u.sau.slots[(2 : Fin 16)]).openTime < (u.sau.slots[(1 : Fin 16)]).openTime := by decide +kernel
theorem test_closings_follow_by_open_time : (closeSlot 0 chained).gev = { queue := [2, 1], current := some (0, false) } := by
  decide +kernel
theorem test_hypotheses_filters :
    let f (e : Bool) (h : Fin 16) : HeadFilter := { enabled := e, head := h }
    let s (a b : HeadFilter) : State := { timing .fenced .complete .fenced 0 .off with ctb :=
      { State.reset.ctb with filters := #v[a, b] } }
    let hits (x : State) (n : Fin 2) : Bool := (x.ctb.filters[n]).enabled &&
      ((x.sau.slots[(0 : Fin 16)]).heads[(x.ctb.filters[n]).head]).contribution == .complete
    hits (s (f true 0) (f true 0)) 0 = true ∧ hits (s (f true 0) (f true 0)) 1 = true ∧
      hits (s (f false 0) (f true 15)) 0 = false ∧ hits (s (f false 0) (f true 15)) 1 = false := by decide +kernel

/-- collecting, with head 0's entry in slot 0 changed, and a fragment waiting. -/
def judging (f : HeadEntry → HeadEntry) : State :=
  holding (scan 0 0 2 1) (modEntry 0 0 f collecting)

theorem test_hypotheses_fragments :
    let e (s : State) := (s.sau.slots[(0 : Fin 16)]).heads[(0 : Fin 16)]
    let corrupt := judging fun x => { x with contribution := .corrupt }
    let twice := judging fun x => { x with count := some 2, received := 1, contribution := .part }
    let other := judging fun x => { x with count := some 3, received := 2, contribution := .part }
    let q := scanSeq (scan 0 0 2 1).bytes
    ((judging id).pool.held.find? (·.ptu)).isSome = true ∧ scanIndex (scan 0 0 2 1).bytes = 0 ∧
      scanCount (scan 0 0 2 1).bytes = 2 ∧
      fragmentCase State.reset q = .stray ∧ fragmentCase { State.reset with trg := { State.reset.trg with seq := 1 } } q = .late ∧
      fragmentCase (judging fun _ => .fresh .out) q = .collecting 0 ∧
      (e (judging fun _ => .fresh .out)).participation = .out ∧
      fragmentCase corrupt q = .collecting 0 ∧ (e corrupt).contribution = .corrupt ∧ (e corrupt).participation ≠ .out ∧
      fragmentCase twice q = .collecting 0 ∧ (e twice).received.getLsbD 0 = true ∧
      fragmentCase other q = .collecting 0 ∧ (e other).received.getLsbD 0 = false ∧ (e other).count = some 3 ∧
      fragmentCase (judging id) q = .collecting 0 ∧ (e (judging id)).count = none ∧
      (e (judging id)).received.getLsbD 0 = false := by decide +kernel
theorem test_hypotheses_accepted_fragments :
    let e (received : BitVec 4) (count : Option Nat) : HeadEntry := { HeadEntry.fresh .measure with received, count }
    let t (index : Nat) (x : HeadEntry) : HeadEntry := HeadEntry.accept index 2 x
    (∀ n < 2, (t 1 (e 1 none)).received.getLsbD n = true) ∧ (∃ n < 2, (t 0 (e 0 (some 2))).received.getLsbD n = false) ∧
      (∀ n < 4, (t 3 (e 7 (some 4))).received.getLsbD n = true) := by decide +kernel

/-- A window of every head, from 0 to 100 on both axes, in place k of strand 0, the calibration turning nothing. -/
def boxed : DieRecord :=
  { DieRecord.blank with windows := .replicate 4 (.replicate 64
      { xLo := 0, xHi := 100, yLo := 0, yHi := 100, heads := 0xFFFF, minCount := 1 }) }

/-- A head of strand 0 whose calibration turns nothing, with minimum quality 9. -/
def straight (written : Bool) : Head :=
  { Head.default with written := written
                      cal := { strand := 0, cosine := 16384, sine := 0, x0 := 0, y0 := 0, minQuality := 9 } }

theorem test_hypotheses_points :
    let slot (n : Nat) : Slot := { Slot.empty with windows := .replicate 4 [{ Accumulator.empty with count := n }] }
    let counts (s : Slot) : List (Nat × Int × Int) := (s.windows[(0 : Fin 4)]).map fun a => (a.count, a.minX, a.sumY)
    let use (written : Bool) (p : RawPoint) (n : Nat) : List (Nat × Int × Int) :=
      counts (usePoints boxed 15 (straight written) [p] (slot n))
    ((slot 0).windows[(0 : Fin 4)]).length ≤ 64 ∧ (straight true).cal.minQuality ≤ 9 ∧
      use false ⟨20, 20, 9⟩ 0 = [(0, 0, 0)] ∧ use true ⟨20, 0, 9⟩ 0 = [(0, 0, 0)] ∧ use true ⟨20, 20, 8⟩ 0 = [(0, 0, 0)] ∧
      use true ⟨20, 20, 9⟩ 0 = [(1, 100, 100)] ∧ use true ⟨21, 20, 9⟩ 0 = [(0, 0, 0)] ∧
      use true ⟨20, 20, 9⟩ 65535 = [(65535, 0, 0)] ∧ use true ⟨20, 20, 9⟩ 65534 = [(65535, 0, 100)] := by decide +kernel
theorem test_hypotheses_rounding :
    roundedDiv 3 2 = 2 ∧ roundedDiv (-3) 2 = -2 ∧ roundedDiv 4 3 = 1 ∧ 2 * (3 - roundedDiv 3 2 * 2).natAbs = 2 := by
  decide +kernel
theorem test_hypotheses_fragment_cases :
    let newerThan (a b : BitVec 16) : Prop := 1 ≤ (a - b).toNat ∧ (a - b).toNat ≤ 32767
    let isHeld (s : State) (i : Fin 16) : Prop := (s.sau.slots[i]).state ≠ .free
    let s := { collecting with sau := { collecting.sau with voidList := [32770] } }
    newerThan 2 1 ∧ newerThan 32768 1 ∧ ¬ newerThan 1 1 ∧ ¬ newerThan 32769 1 ∧
      (32770 : BitVec 16) ∈ s.sau.voidList ∧ (1 : BitVec 16) ∉ s.sau.voidList ∧ isHeld s 0 ∧
      (s.sau.slots[(0 : Fin 16)]).seq = 1 ∧ (∀ i : Fin 16, ¬ (isHeld s i ∧ (s.sau.slots[i]).seq ≠ 1)) ∧
      (∀ i : Fin 16, isHeld s i → newerThan (s.sau.slots[i]).seq 0) ∧ (∀ i : Fin 16, isHeld s i → (s.sau.slots[i]).seq ≠ 0) ∧
      (∃ i : Fin 16, isHeld s i ∧ ¬ newerThan (s.sau.slots[i]).seq 32769) := by
  refine ⟨?_, ?_, ?_, ?_, ?_, ?_, ?_, ?_, ?_, ?_, ?_, ⟨0, ?_⟩⟩ <;> decide +kernel

theorem test_hypotheses_deadline :
    (collecting.sau.slots[(0 : Fin 16)]).state = .collecting ∧
      (collecting.sau.slots[(0 : Fin 16)]).deadline ≤ { collecting with now := 2000 }.now ∧
      { collecting with now := 1999 }.now < (collecting.sau.slots[(0 : Fin 16)]).deadline ∧
      (State.reset.sau.slots[(15 : Fin 16)]).state ≠ .collecting := by decide +kernel

theorem test_hypotheses_evaluation :
    let s : State := { collecting with gev := { queue := [15, 3], current := none } }
    { s with gev := { s.gev with current := some (0, true) } }.gev.current = some (0, true) ∧ s.gev.current = none ∧
      s.gev.queue = 15 :: [3] ∧ ((serving.lmp.rings[(0 : Fin 4)]).cell 0).map (·.state) = some .live ∧
      (serving.lmp.rings[(0 : Fin 4)]).cell 4096 = none ∧
      ((serving.lmp.rings[(0 : Fin 4)]).cell 1).map (·.state) = some .closed := by decide +kernel

theorem test_hypotheses_sampled_sections :
    let d (m : BitVec 16) : State := serving.modDie 0 fun x => { x with record := { x.record with
      entry := { x.record.entry with sampleCompare := 0, sampleMask := m }
      strands := x.record.strands.set 0 { heads := 0, windowCount := 1, gaugeCount := 1 }
      gauges := .replicate 4 (.replicate 32 { Gauge.blank with enabled := true }) } }
    let rs (m : BitVec 16) := ((List.finRange 32).filter fun n =>
      decide (n.val < ((servingDie (d m)).strands[(0 : Fin 4)]).gaugeCount) &&
        (((servingDie (d m)).gauges[(0 : Fin 4)])[n]).enabled).map (gaugeResult (servingDie (d m)) Slot.empty 0)
    let slot (q : BitVec 16) : Slot := { Slot.empty with seq := q }
    (rs 1).length = 1 ∧ (slot 2).seq &&& (servingDie (d 1)).entry.sampleMask = 0 ∧
      (slot 3).seq &&& (servingDie (d 1)).entry.sampleMask ≠ 0 ∧ (loaded .quota 0 0 63 0).egs.c.length < 64 ∧
      64 ≤ (loaded .quota 0 0 64 0).egs.c.length ∧
      (completeEvaluated (slot 2) 0 (d 1)).egs.c.length = 1 ∧ (completeEvaluated (slot 3) 0 (d 1)).egs.c.length = 0 := by
  decide +kernel
theorem test_hypotheses_temperatures :
    let f : HeldFrame := { port := 7, bytes := (temp 3 1 0x1F 0x40).bytes, ptu := false, tmu := true, queueD := .none }
    let s : State := { State.reset with pool := { State.reset.pool with held := [f] } }
    let t (n : Nat) : State :=
      { serving with now := n, tmu := { serving.tmu with strands := serving.tmu.strands.set 0 (.fresh 8000 0 500000) } }
    s.pool.held.find? (·.tmu) = some f ∧ State.reset.pool.held.find? (·.tmu) = none ∧
      tempReadings f.bytes = [{ strand := 3, valid := true, temp := 8000 }] ∧
      (t 500000).tmu.strands[(0 : Fin 4)] = .fresh 8000 0 500000 ∧ (500000 : Nat) ≤ (t 500000).now ∧
      (t 500000).dlb.service = .inspecting ∧ (0 : Fin 4) ∈ usedStrands (t 500000) ∧
      (1 : Fin 4) ∉ usedStrands (t 500000) := by decide +kernel
theorem test_hypotheses_stale_flag :
    let s (x : StrandTemp) (t : Fin 4) : State :=
      { serving with tmu := { serving.tmu with strands := serving.tmu.strands.set t x } }
    (0 : Fin 4) ∈ usedStrands (s (.stale 5 0) 0) ∧ (s (.stale 5 0) 0).tmu.strands[(0 : Fin 4)] = .stale 5 0 ∧
      (1 : Fin 4) ∉ usedStrands (s (.stale 5 0) 1) ∧ (s (.fresh 5 0 7) 0).tmu.strands[(0 : Fin 4)] = .fresh 5 0 7 ∧
      (∀ k : Fin 8, (idle.dlb.slots[k]).state ≠ .inService) := by
  decide +kernel
theorem test_hypotheses_samples :
    let s (x : StrandTemp) : State := { serving with tmu := { serving.tmu with strands := serving.tmu.strands.set 0 x } }
    (s (.fresh 5 0 7)).tmu.strands[(0 : Fin 4)] = .fresh 5 0 7 ∧ (s (.stale 5 0)).tmu.strands[(0 : Fin 4)] = .stale 5 0 ∧
      serving.tmu.strands[(0 : Fin 4)] = .none := by decide +kernel
theorem test_hypotheses_temperature_not_expired :
    ∀ temp taken expiry,
      ({ State.reset with tmu := { State.reset.tmu with strands := State.reset.tmu.strands.set 0 (.fresh 5 0 7) } } :
        State).tmu.strands[(0 : Fin 4)] = .fresh temp taken expiry → State.reset.now < expiry := by
  intro temp taken expiry h
  have e : ({ State.reset with tmu := { State.reset.tmu with strands := State.reset.tmu.strands.set 0 (.fresh 5 0 7) } } :
      State).tmu.strands[(0 : Fin 4)] = .fresh 5 0 7 := by decide +kernel
  have z : State.reset.now = 0 := rfl
  rw [e] at h
  injection h with _ _ h
  omega

/-- After reset at a time, line BILLET with a candidate. -/
def filtering (now : Nat) (c : Option Candidate) : State :=
  { State.reset with
    now := now, emu := { State.reset.emu with lines := upd State.reset.emu.lines 0 fun x => { x with candidate := c } } }

theorem test_hypotheses_event_lines :
    (filtering 49 (some ⟨0, 50⟩)).inReset = false ∧
      ((filtering 49 (some ⟨0, 50⟩)).emu.lines[lineIndex .billet]).candidate = some ⟨0, 50⟩ ∧
      (filtering 49 (some ⟨0, 50⟩)).now < 0 + 50 ∧ 0 + 50 ≤ (filtering 50 (some ⟨0, 50⟩)).now ∧
      (State.reset.emu.lines[lineIndex .billet]).level = false ∧
      (State.reset.emu.lines[lineIndex .billet]).candidate = none ∧
      0 < (State.reset.emu.lines[lineIndex .billet]).time := by decide +kernel
theorem test_hypotheses_candidate_not_lasted :
    ∀ c, ((filtering 49 (some ⟨0, 50⟩)).emu.lines[lineIndex .billet]).candidate = some c → 49 < c.start + c.time := by
  intro c h
  have e : ((filtering 49 (some ⟨0, 50⟩)).emu.lines[lineIndex .billet]).candidate = some ⟨0, 50⟩ := by decide +kernel
  rw [e] at h
  injection h with h
  subst h
  decide
theorem test_hypotheses_unfiltered_lines :
    let s : State := { State.reset with
      emu := { State.reset.emu with lines := upd State.reset.emu.lines 0 fun x => { x with time := 0 } } }
    let t := filtering 50 (some ⟨0, 50⟩)
    s.inReset = false ∧ true ≠ (s.emu.lines[lineIndex .billet]).level ∧
      (s.emu.lines[lineIndex .billet]).candidate = none ∧ (s.emu.lines[lineIndex .billet]).time = 0 ∧
      seen (.eventLineChange .billet true) s (fun v => (v.emu.lines[lineIndex .billet]).level) = some true ∧
      (t.emu.lines[lineIndex .billet]).candidate = some ⟨0, 50⟩ ∧ 0 + 50 ≤ t.now ∧
      (seen (.filterTimeExpiry .billet) t fun v => (v.emu.lines[lineIndex .billet]).level) = some true := by
  decide +kernel

theorem test_hypotheses_events :
    State.reset.dlb.service ≠ .inspecting ∧ (loaded .quota 0 31 0 0).egs.b.length < 32 ∧
      32 ≤ (loaded .quota 0 32 0 0).egs.b.length ∧ serving.dlb.service = .inspecting ∧
      serving.lmp.geometry = some geometry0 ∧ usedStrands serving = [0] ∧
      (serving.pcu.strands[(0 : Fin 4)]).closing.length < 4 ∧
      (∃ i ∈ usedStrands serving,
        4 ≤ ((serving.modPieces 0 fun p => { p with closing := List.replicate 4 ⟨Piece.new 0, 0⟩ }).pcu.strands[i]).closing.length) := by
  decide +kernel

theorem test_hypotheses_alarms :
    let s (n : Nat) (reserved : Bool) : State :=
      { loaded .quota n 0 0 0 with egs := { (loaded .quota n 0 0 0).egs with reserved := reserved } }
    let load (x : State) : Nat := x.egs.a.length + (if x.egs.reserved then 1 else 0)
    State.reset.mga.alarms.getLsbD AlarmKind.dieChanged.bit = false ∧ load (s 15 false) < 16 ∧ load (s 14 true) < 16 ∧
      16 ≤ load (s 16 false) ∧ 16 ≤ load (s 15 true) ∧
      { State.reset.mga with alarms := 0x104 }.alarms.getLsbD AlarmKind.dieChanged.bit = true := by decide +kernel

/-- serving at M = 1000, its weld window from one offset to another. -/
def welding (a b : Int) : State :=
  let s := serving.modDie 0 fun d => { d with record := { d.record with
    entry := d.record.entry, weld := { startOff := a, endOff := b, consequence := .scrap } } }
  { s with pos := { s.pos with station := 1000 } }

theorem test_hypotheses_event_marks :
    let md : Int := 1000 - geometry0.origin + geometry0.dieToStation
    let cell (x : Int) : Int := (md + x) / geometry0.cellLength
    let w (a b : Int) : MarkWindow := (servingDie (welding a b)).weld
    (welding 1 0).lmp.geometry = some geometry0 ∧ (welding 1 0).pos.station = 1000 ∧ (w 1 0).endOff < (w 1 0).startOff ∧
      (w 0 0).startOff ≤ (w 0 0).endOff ∧ cell 0 ≤ md / 200 ∧ md / 200 < cell 200 ∧ md / 200 < cell 400 ∧
      ¬ md / 200 < cell 0 ∧ (w 200 400).startOff = 200 ∧ (w (-200) 199).endOff = 199 := by decide +kernel
theorem test_hypotheses_refused_marks :
    let r := serving.lmp.rings[(0 : Fin 4)]
    r.wf = true ∧ (∀ x ∈ r.cell (0 + BitVec.ofNat 32 1), x.state = .closed) ∧ (1 : Nat) < 2 ∧
      r.cell (0xFFFFFFFF + BitVec.ofNat 32 0) = none ∧ (r.cell (0 + BitVec.ofNat 32 0)).map (·.state) = some .live := by
  decide +kernel
theorem test_lost_marks_count_once :
    let n (first : Word32) (count : Nat) : Nat :=
      ((markImmediate .weld .scrap first count 0 serving).ctb.strands[(0 : Fin 4)])[(12 : Fin 14)].toNat
    n 0 1 = 0 ∧ n 0 2 = 1 ∧ n 0xFFFFFFFE 4 = 1 ∧ n 1 1 = 1 := by decide +kernel
theorem test_hypotheses_blanking :
    let s (blank n : Nat) : State := { serving.modDie 0 fun d => { d with record := { d.record with
      entry := { d.record.entry with blankLength := blank } } } with
      emu := { serving.emu with blanking := List.replicate n { start := 1, stop := 2 } } }
    (servingDie (s 0 4)).entry.blankLength = 0 ∧ 0 < (servingDie (s 1 4)).entry.blankLength ∧
      (s 1 3).emu.blanking.length < 4 ∧ ¬ (s 1 4).emu.blanking.length < 4 := by decide +kernel

/-- A pending mark from one cell to another. -/
def pend (a b : Word32) (c : Consequence) : PendingMark := { kind := .stop, consequence := c, first := a, last := b }

theorem test_hypotheses_pending_marks :
    let few (n : Nat) : State := { serving with
      emu := { serving.emu with pending := List.replicate n (pend 0xFFFFFFFF 1 .hold) } }
    let place (n : Word32) : Nat := (n - 0xFFFFFFF0).toNat
    let l := (few 16).emu.pending
    (∀ f ∈ [pend 0xFFFFFFFF 1 .hold], cellLe f.first 0 = true) ∧
      (∀ f ∈ [pend 1 1 .hold].head?, cellLe f.first 0 = false) ∧ (few 15).emu.pending.length < 16 ∧ 16 ≤ l.length ∧
      l[15]? = some (pend 0xFFFFFFFF 1 .hold) ∧ (∀ f ∈ l, place f.last < 2 ^ 31) ∧
      (∀ j < 16, ∀ f ∈ l[j]?, place f.last ≤ place 1 ∧ (15 < j → place f.last < place 1)) ∧
      place 0 < 2 ^ 31 ∧ place 0xFFFFFFFF < 2 ^ 31 := by decide +kernel

theorem test_hypotheses_advances :
    State.reset.lmp.geometry = none ∧ idle.dlb.service ≠ .inspecting ∧ serving.lmp.geometry = some geometry0 ∧
      serving.dlb.service = .inspecting ∧ servingSlot serving = some 0 ∧
      0 < (serving.dlb.slots[(0 : Fin 8)]).record.entry.strandCount ∧ (0 : Fin 4) ∈ usedStrands serving ∧
      (serving.lmp.rings[(0 : Fin 4)]).cell 0 = some (Cell.made 0 .live false 7) := by decide +kernel
theorem test_hypotheses_push_start :
    stagedSlot (withDie 7 .staged serving) = some 7 ∧ stagedSlot serving = none := by decide +kernel

theorem test_hypotheses_cells :
    (serving.lmp.rings[(0 : Fin 4)]).wf = true ∧ (0 : Fin 4) ∈ usedStrands serving ∧
      (serving.lmp.rings[(0 : Fin 4)]).cell 0 = some (Cell.made 0 .live false 7) ∧
      (Cell.made 0 .live false 7).state ≠ .closed ∧
      (serving.lmp.rings[(0 : Fin 4)]).cell 1 = some (Cell.made 1 .closed false 7) ∧
      (serving.lmp.rings[(0 : Fin 4)]).cell 2 = none := by decide +kernel

/-- A LIVE cell with one section with data, changed. -/
def cellWith (f : Cell → Cell) : Cell := f { Cell.made 0 .live false 7 with evaluated := 1, withData := 1 }

/-- The verdict and lead gauge of a closing cell of strand 0 under die1. -/
def judged (f : Cell → Cell) : CellVerdict × Option Nat :=
  let r := cellResult die1 0 (cellWith f)
  (r.verdict, r.lead)

theorem test_hypotheses_cell_verdicts :
    judged (fun c => { c with marks := { c.marks with proof := some .scrap } }) = (.scrap, none) ∧
      judged (fun c => { c with unseen := true }) = (.hold, none) ∧
      judged (fun c => { c with withData := 0 }) = (.hold, none) ∧
      judged (fun c => { c with warns := 1 }) = (.warn, none) ∧ judged id = (.good, none) ∧
      judged (fun c => { c with tallies := (c.tallies.set 3 2).set 31 2 }) = (.warn, some 3) := by decide +kernel

theorem test_hypotheses_piece_verdicts :
    let p (cells scrap hold : Nat) : Piece := { Piece.new 0 with cells := cells, scrap := scrap, hold := hold }
    40 * (p 5 2 0).cells ≤ (p 5 2 0).scrap * 100 ∧ (p 6 2 1).scrap * 100 < 40 * (p 6 2 1).cells ∧ 0 < (p 6 2 1).hold ∧
      (p 6 2 0).hold = 0 ∧ 0 < (p 6 2 0).scrap ∧ (p 6 0 0).scrap = 0 := by decide +kernel

/-- A HOLD zone of two cells at an offset. -/
def zone2 (offset : Nat) : Zone := { offset := offset, length := 2, cls := .hold, reasons := 1, lead := none }

theorem test_hypotheses_folds :
    let r (v : CellVerdict) : CellResult := { verdict := v, reasons := 16, lead := some 3 }
    let p (n : Nat) : Piece := { Piece.new 0xFFFFFFFF with zones := (List.range n).map fun i => zone2 (4 * i) }
    let k (n : Word32) : Nat := (n - 0xFFFFFFFF).toNat
    (r .hold).verdict = .hold ∧ (r .scrap).verdict = .scrap ∧ (p 0).zones = [] ∧ (p 1).zones = [] ++ [zone2 0] ∧
      (zone2 0).cls = .hold ∧ (zone2 0).offset + (zone2 0).length = k 1 ∧ (p 7).zones.length < 8 ∧
      8 ≤ (p 8).zones.length ∧ (zone2 28).offset + (zone2 28).length ≠ k 31 := by decide +kernel
theorem test_ninth_zone_extends_the_eighth :
    let r : CellResult := { verdict := .scrap, reasons := 16, lead := some 3 }
    let q := ({ Piece.new 0xFFFFFFFF with zones := (List.range 8).map fun i => zone2 (4 * i) } : Piece).fold 31 r
    q.zones.getLast? = some { offset := 28, length := 5, cls := .scrap, reasons := 17, lead := some 3 } ∧
      q.overflow = true ∧ q.zones.length = 8 ∧ q.scrap = 1 ∧ q.cells = 1 := by decide +kernel
theorem test_cut_cell_completes_its_pieces :
    let s := serving.modPieces 0 fun x => { x with closing := [{ piece := Piece.new 0, cut := 5 }, { piece := Piece.new 5, cut := 5 },
      { piece := Piece.new 5, cut := 6 }] }
    let u := foldCell 0 5 { verdict := .good, reasons := 0, lead := none } s
    (u.pcu.strands[(0 : Fin 4)]).closing.length = 1 ∧ (u.pcu.strands[(0 : Fin 4)]).next = (s.pcu.strands[(0 : Fin 4)]).next + 2 ∧
      u.pcu.log.map (fun e => e.completed.piece.first) = [0, 5] := by decide +kernel
theorem test_hypotheses_completions :
    let log (first others : Bool) : List LogEntry := piece0 first :: List.replicate 15 (piece0 others)
    let mine (l : List LogEntry) : Nat := (l.filter fun e => decide (e.completed.strand = 0)).length
    mine (List.replicate 15 (piece0 true)) < 16 ∧ 16 ≤ mine (log true false) ∧ (piece0 true).sent = true ∧
      (∃ x ∈ List.replicate 15 (piece0 false), x.sent = false) ∧ (∀ x ∈ List.replicate 15 (piece0 true), x.sent = true) ∧
      16 ≤ mine (log false true) ∧ (piece0 false).completed.strand = 0 := by decide +kernel
theorem test_hypotheses_gates :
    let s (n : Nat) : State := { State.reset.modPieces 0 fun p => { p with gate := some 10 } with now := n }
    ((s 10).pcu.strands[(0 : Fin 4)]).gate = some 10 ∧ 10 ≤ (s 10).now ∧ (s 9).now < 10 := by decide +kernel

/-- A gauge with reject limits ±10 and warn limits ±5. -/
def gauge0 : Gauge := { Gauge.blank with rejLo := -10, warnLo := -5, warnHi := 5, rejHi := 10 }

theorem test_hypotheses_bands :
    bandOf gauge0 11 = .reject ∧ bandOf gauge0 10 = .warn ∧ bandOf gauge0 5 = .good ∧ bandOf gauge0 (-6) = .warn ∧
      bandOf gauge0 (-11) = .reject := by decide +kernel
theorem test_hypotheses_gauge_results :
    let points (n : Int) : Accumulator := { Accumulator.empty with count := 1, minX := n, maxX := n + 7 }
    let die (thermal : Bool) : DieRecord := { DieRecord.blank with
      windows := .replicate 4 (.replicate 64 { Window.blank with minCount := 1 })
      gauges := .replicate 4 (.replicate 32 { gauge0 with kind := .spread, thermal := thermal }) }
    let slot : Slot := { Slot.empty with windows := .replicate 4 [points 5] }
    hotValue (die true) slot 0 (((die true).gauges[(0 : Fin 4)])[(31 : Fin 32)]) = some 7 ∧
      (((die true).gauges[(0 : Fin 4)])[(31 : Fin 32)]).thermal = true ∧
      (((die false).gauges[(3 : Fin 4)])[(0 : Fin 32)]).thermal = false := by decide +kernel
theorem test_hypotheses_picks :
    let acc (n : Int) (c : Nat) : Accumulator := { Accumulator.empty with count := c, minX := n, maxX := n + 7 }
    let die (k : GaugeKind) : DieRecord := { boxed with gauges := .replicate 4 (.replicate 32 { gauge0 with kind := k, windowB := 1 }) }
    let slot (a b : Nat) : Slot := { Slot.empty with windows := .replicate 4 [acc 5 a, acc 9 b] }
    let hot (k : GaugeKind) (a b : Nat) := hotValue (die k) (slot a b) 3 (((die k).gauges[(3 : Fin 4)])[(31 : Fin 32)])
    let short (p : Participation) : Bool := (gaugeResult (die .span) { slot 1 1 with heads := .replicate 16 (.fresh p) } 3 31).short
    ((slot 1 1).windows[(3 : Fin 4)])[1]? = some (acc 9 1) ∧ (((die .span).windows[(3 : Fin 4)])[(1 : Fin 64)]).minCount ≤ 1 ∧
      hot .span 1 1 = some 4 ∧ hot .spread 1 0 = some 7 ∧ hot .span 0 1 = none ∧ hot .span 1 0 = none ∧
      hot .spread 0 1 = none ∧ short .measure = true ∧ short .fenced = true ∧ short .out = false := by decide +kernel
theorem test_hypotheses_shrink :
    (6400 : Nat) ≤ 6400 ∧ 6399 / 200 = (31 : Fin 32).val ∧ 0 / 200 = (0 : Fin 32).val ∧
      coldEquivalent 1000 8191 = 875 ∧ coldEquivalent (-1000) 8191 = -875 := by decide +kernel

theorem test_hypotheses_other_row :
    (asked 1 [] State.reset).mga.input = reqOf 1 [] :: [] ∧ Instr.flush ≠ rowOf (reqOf 1 []) ∧
      Instr.flush ∈ managementRows ∧ State.reset.mga.input = [] ∧
      16 ≤ queueALoad (loaded .quota 16 0 0 0) ∧ ¬ 16 ≤ queueALoad (loaded .quota 15 0 0 0) := by decide +kernel
theorem test_hypotheses_taken :
    let s : State := asked 1 [] (loaded .quota 15 0 0 0)
    let fixed : State := { s with mga := { s.mga with mode := .fixed, fixed := 5 } }
    let first : State := { s with mga := { s.mga with mode := .first } }
    Taken s (reqOf 1 []) [] ∧ Ready s (reqOf 1 []) [] ∧ Taken fixed (reqOf 1 []) [] ∧
      ¬ Bound fixed (reqOf 1 []).source ∧ Ready first (reqOf 1 []) [] := by decide +kernel

/-- The request of a command is ready after reset. -/
def ready (command : Byte) (args : List Nat) (s : State) : Bool :=
  decide (Ready (asked command args s) (reqOf command args) [])

theorem test_hypotheses_unsound_sizes :
    ready 1 [0] State.reset ∧ sizeSound 1 1 = false ∧ sizeSound 2 99 = false ∧ sizeSound 2 88 = true ∧
      sizeSound 7 1320 = false ∧ sizeSound 7 1280 = true ∧ sizeSound 7 0 = true ∧
      ready 17 [] State.reset ∧ (16 : Nat) < (17 : Byte).toNat ∧ ready 0 [] State.reset := by decide +kernel
theorem test_hypotheses_identify_clear_reset :
    ready 1 [] State.reset ∧ Asks (reqOf 1 []) 1 0 ∧ ready 15 [] State.reset ∧ Asks (reqOf 15 []) 15 0 ∧
      ready 16 [] State.reset ∧ Asks (reqOf 16 []) 16 0 := by decide +kernel

theorem test_hypotheses_set_geometry :
    ready 4 [0, 200, 0, 0, 3, 232, 0, 0, 2, 88] State.reset ∧ Asks (reqOf 4 [0, 200, 0, 0, 3, 232, 0, 0, 2, 88]) 4 10 ∧
      ready 4 [0, 200, 0, 0, 3, 232, 0, 0, 2, 88] serving ∧ serving.dlb.service = .inspecting ∧
      natAt (reqOf 4 [0, 19, 0, 0, 3, 232, 0, 0, 2, 88]).args 0 2 < 20 ∧
      natAt (reqOf 4 [0x13, 0x88, 0, 0, 3, 232, 0, 0, 2, 88]).args 0 2 = 5000 ∧
      4096 < max 1 (ceilDiv 80621 20) + 2 + 64 ∧ max 1 (ceilDiv 80600 20) + 2 + 64 ≤ 4096 ∧
      max 2 (ceilDiv 20 20 + 1) = 2 := by decide +kernel
theorem test_hypotheses_flush :
    serving.lmp.geometry = some geometry0 ∧ 0 < geometry0.cellLength ∧ ready 11 [] State.reset ∧
      Asks (reqOf 11 []) 11 0 ∧ (begun (asked 11 [] State.reset) (reqOf 11 []) []).dlb.service = .unconfigured ∧
      ready 11 [] serving ∧ (begun (asked 11 [] serving) (reqOf 11 []) []).dlb.service ≠ .unconfigured := by
  decide +kernel
theorem test_hypotheses_voided_slots :
    let s := held .collecting serving
    let order : List (Fin 16) := [5, 4, 6, 3, 7, 2, 8, 1, 9, 0, 10, 11, 12, 13, 14, 15]
    (∀ i : Fin 16, i ∈ order ↔ (s.sau.slots[i]).state ≠ .free) ∧
      order.Pairwise (fun i j => (s.sau.slots[i]).openTime < (s.sau.slots[j]).openTime ∨
        ((s.sau.slots[i]).openTime = (s.sau.slots[j]).openTime ∧ i < j)) := by decide +kernel
theorem test_flush_aborts_closing_pieces :
    let s := serving.modPieces 0 fun x => { x with closing := [{ piece := Piece.new 0, cut := 5 }] }
    (flushMap s).pcu.log.map (fun e => (e.completed.verdict, e.completed.number)) =
      [(.aborted, (s.pcu.strands[(0 : Fin 4)]).next)] := by decide +kernel
theorem test_hypotheses_set_head_state :
    ready 5 [15, 2] (headed .fenced) ∧ Asks (reqOf 5 [15, 2]) 5 2 ∧ (reqOf 5 [15, 2]).arg 0 = (15 : Fin 16).val ∧
      (reqOf 5 [15, 2]).arg 1 = 2 ∧ ready 5 [16, 2] State.reset ∧ 15 < (reqOf 5 [16, 2]).arg 0 ∧
      ready 5 [0, 3] State.reset ∧ 2 < (reqOf 5 [0, 3]).arg 1 ∧ ((headed .fenced).heads[(0 : Fin 16)]).state = .fenced := by
  decide +kernel
theorem test_hypotheses_select_die :
    let u (s : State) (k : Nat) : State := begun (asked 9 [k] s) (reqOf 9 [k]) []
    ready 9 [8] idle ∧ Asks (reqOf 9 [8]) 9 1 ∧ 7 < (reqOf 9 [8]).arg 0 ∧ (reqOf 9 [7]).arg 0 = (7 : Fin 8).val ∧
      ready 9 [7] (withDie 7 .ready idle) ∧ ((u (withDie 7 .ready idle) 7).dlb.slots[(7 : Fin 8)]).state = .ready ∧
      (u (withDie 7 .ready idle) 7).dlb.service = .idle ∧ ready 9 [7] (withDie 7 .ready serving) ∧
      (u (withDie 7 .ready serving) 7).dlb.service = .inspecting ∧
      ((u (withDie 7 .ready serving) 7).dlb.slots[(7 : Fin 8)]).state = .ready ∧ ready 9 [7] State.reset ∧
      (u State.reset 7).dlb.service = .unconfigured ∧ ((u idle 7).dlb.slots[(7 : Fin 8)]).state ≠ .ready := by
  decide +kernel
theorem test_hypotheses_deactivate :
    let u (s : State) : State := begun (asked 10 [] s) (reqOf 10 []) []
    ready 10 [] idle ∧ Asks (reqOf 10 []) 10 0 ∧ (u idle).dlb.service ≠ .inspecting ∧ ready 10 [] serving ∧
      (u serving).dlb.service = .inspecting ∧ servingSlot (u serving) = some 0 := by decide +kernel

/-- After reset with the header of die slot 7 open, at a pointer. -/
def windowed (t : Target) (pointer last : Nat) : State :=
  { State.reset with mga := { State.reset.mga with window := { target := some t, pointer := pointer, last := last, overrun := 0 } } }

theorem test_hypotheses_table_open :
    let u (s : State) (a : List Nat) : State := begun (asked 6 a s) (reqOf 6 a) []
    ready 6 [3, 8, 1, 0, 0, 0] State.reset ∧ Asks (reqOf 6 [3, 8, 1, 0, 0, 0]) 6 6 ∧ targetOf 3 8 1 0 = none ∧
      targetOf 2 3 0 0 = some (.curve 3) ∧ targetOf 3 7 4 3 = some (.die 7 (.gauges 3)) ∧
      (Target.curve 3).entries = 33 ∧ (Target.curve 3).slot = none ∧ Target.slot (.die 7 (.gauges 3)) = some 7 ∧
      ((u serving [3, 0, 1, 0, 0, 4]).dlb.slots[(0 : Fin 8)]).state = .inService ∧
      ((u (withDie 7 .staged serving) [3, 7, 1, 0, 0, 4]).dlb.slots[(7 : Fin 8)]).state = .staged ∧
      ((u serving [3, 7, 1, 0, 0, 4]).dlb.slots[(7 : Fin 8)]).state = .empty := by decide +kernel
theorem test_hypotheses_targets :
    ¬ ((4 = 1 ∧ 0 = 0) ∨ (4 = 2 ∧ 0 < 4) ∨ (4 = 3 ∧ 0 < 8)) ∧ targetOf 2 3 0 0 = some (.curve 3) ∧
      targetOf 2 4 0 0 = none ∧ targetOf 3 7 4 3 = some (.die 7 (.gauges 3)) ∧ targetOf 3 7 4 4 = none ∧
      targetOf 3 8 1 0 = none ∧ targetOf 3 0 0 0 = none ∧ targetOf 3 0 5 0 = none ∧ targetOf 1 9 1 0 = none := by
  decide +kernel
/-- die1 with the counts and boxes that validation asks for. -/
def die2 : DieRecord :=
  { die1 with strands := die1.strands.set 0 { heads := 0, windowCount := 1, gaugeCount := 1 } }

theorem test_hypotheses_window_closes :
    (windowed .heads 0 15).mga.window = { target := some .heads, pointer := 0, last := 15, overrun := 0 } ∧
      Target.slot .heads = none ∧
      validate (Vector.replicate 4 { Curve.blank with written := BitVec.allOnes 33 }) State.reset.heads die2 = none ∧
      validate State.reset.tmu.curves State.reset.heads DieRecord.blank = some { number := 1, strand := none, entry := none } ∧
      validate State.reset.tmu.curves State.reset.heads die2 = some { number := 2, strand := none, entry := none } := by
  decide +kernel
/-- Curve 0 filled and the others empty. -/
def filledCurves : Vector Curve 4 := Vector.replicate 4 { Curve.blank with written := BitVec.allOnes 33 }

/-- The fault of die2, changed, as check number, strand and entry. -/
def faultOf (f : DieRecord → DieRecord) : Option (Nat × Option Nat × Option Nat) :=
  (validate filledCurves State.reset.heads (f die2)).map fun x => (x.number, x.strand, x.entry)

/-- die2 with its strand descriptor, its windows or its gauges in strand 0 replaced. -/
def die2With (d : StrandDesc) (w : Window) (g : Gauge) (r : DieRecord) : DieRecord :=
  { r with strands := r.strands.set 0 d, windows := r.windows.set 0 (.replicate 64 w)
           gauges := r.gauges.set 0 (.replicate 32 g) }

theorem test_validation_faults :
    let x : StrandDesc := { heads := 0, windowCount := 1, gaugeCount := 1 }
    [faultOf (die2With { x with windowCount := 65 } Window.blank Gauge.blank),
      faultOf (die2With x { Window.blank with xLo := 1 } Gauge.blank),
      faultOf (die2With x { Window.blank with heads := 1 } Gauge.blank),
      faultOf (die2With { x with heads := 0x8000 } Window.blank Gauge.blank),
      faultOf (die2With x Window.blank { Gauge.blank with windowA := 1 }),
      faultOf (die2With x Window.blank { Gauge.blank with warnLo := 1 }),
      faultOf (fun r => { r with entry := { r.entry with scrapLimit := 101 } })] =
      [some (3, some 0, some 1), some (4, some 0, some 0), some (5, some 0, some 0), some (6, some 0, some 15),
        some (7, some 0, some 0), some (8, some 0, some 0), some (9, none, none)] := by decide +kernel
theorem test_hypotheses_validation :
    let x := die2.strands[(0 : Fin 4)]
    let g := (die2.gauges[(0 : Fin 4)])[(0 : Fin 32)]
    let w := (die2.windows[(0 : Fin 4)])[(0 : Fin 64)]
    die2.entry.strandCount = 1 ∧ (∀ i : Fin 33, (filledCurves[die2.entry.curve]).written.getLsbD i.val = true) ∧
      x.windowCount = 1 ∧ x.gaugeCount = 1 ∧ w.xLo ≤ w.xHi ∧ w.yLo ≤ w.yHi ∧ w.heads = 0 ∧ x.heads = 0 ∧
      g.windowA < x.windowCount ∧ g.windowB < x.windowCount ∧ g.rejLo ≤ g.warnLo ∧ g.warnLo ≤ 0 ∧ 0 ≤ g.warnHi ∧
      g.warnHi ≤ g.rejHi ∧ die2.entry.scrapConfirm = 3 ∧ die2.entry.holdConfirm = 2 ∧ die2.entry.scrapLimit = 40 := by
  decide +kernel
theorem test_hypotheses_table_data :
    let r (n : Nat) : Request := reqOf 7 (List.replicate (40 * n) 0)
    let s (n : Nat) (t : State) : State := asked 7 (List.replicate (40 * n) 0) t
    Ready (s 32 State.reset) (r 32) [] ∧ (r 32).command = 7 ∧ (r 32).args.length = 40 * 32 ∧
      (s 32 State.reset).mga.window.target = none ∧ Ready (s 0 (windowed .heads 16 15)) (r 0) [] ∧ (r 0).args = [] ∧
      Ready (s 1 (windowed .heads 16 15)) (r 1) [] ∧ (15 : Nat) < 16 ∧
      (s 1 (windowed (.curve 3) 32 32)).mga.window = { target := some (.curve 3), pointer := 32, last := 32, overrun := 0 } := by
  decide +kernel
theorem test_hypotheses_data_entries :
    let zeros (n : Nat) : List Byte := List.replicate n 0
    let s := windowed (.curve 0) 32 32
    s.mga.window.target = some (.curve 0) ∧ s.mga.window.pointer ≤ s.mga.window.last ∧
      (match writeEntry (.curve 0) 32 (zeros 40) s with
        | .stored c _ => c
        | .refused _ => true) = false ∧
      (windowed (.curve 0) 33 32).mga.window.last < (windowed (.curve 0) 33 32).mga.window.pointer ∧
      (match writeEntry .heads 0 (4 :: zeros 39) s with
        | .stored _ _ => none
        | .refused st => some st) = some .badValue ∧ (zeros 40).length = 40 ∧
      tableRecords (zeros 40 ++ (1 :: zeros 39)) = [zeros 40, 1 :: zeros 39] := by
  decide +kernel
theorem test_hypotheses_written_entries :
    (match writeEntry (.curve 3) 32 [0x20, 0] State.reset with
      | .stored c _ => c
      | .refused _ => false) = true ∧
      (match writeEntry .heads 0 [] (headed .measure) with
      | .refused st => some st
      | .stored _ _ => none) = some .inUse := by decide +kernel
theorem test_hypotheses_head_entries :
    let fields (a : List Nat) := headFields (a.map (BitVec.ofNat 8))
    let good := fields [3, 0x40, 0, 0, 0, 0x0F, 0x42, 0x40, 0xF0, 0xBD, 0xC0, 9]
    good = { strand := 3, cosine := 16384, sine := 0, x0 := 1000000, y0 := -1000000, minQuality := 9 } ∧
      good.cosine * good.cosine + good.sine * good.sine - 268435456 = 0 ∧
      3 < (fields [4]).strand ∧ 1000000 < (fields [3, 0x40, 0, 0, 0, 0x0F, 0x42, 0x41]).x0 ∧
      ((headed .off).heads[(0 : Fin 16)]).state = .off ∧ ¬ ((headed .fenced).heads[(0 : Fin 16)]).state = .off := by
  decide +kernel
theorem test_hypotheses_die_entries :
    let num (b : List Nat) (offset : Nat) : Nat := natAt (b.map (BitVec.ofNat 8)) offset 1
    let zeros (n : Nat) : List Nat := List.replicate n 0
    num (zeros 21 ++ [3]) 21 = (3 : Fin 4).val ∧ num (zeros 28 ++ [2]) 28 = 2 ∧ 3 < num (zeros 21 ++ [4]) 21 ∧
      2 < num (zeros 28 ++ [3]) 28 ∧ num (zeros 8 ++ [2]) 8 = 2 ∧ 2 < num (zeros 8 ++ [3]) 8 ∧ num (zeros 19) 18 = 0 ∧
      num (zeros 18 ++ [1]) 18 ≠ 0 ∧ num [1, 1, 1, 0, 2, 0, 2] 0 = 1 ∧ num [1, 1, 1, 0, 2, 0, 2] 4 = 2 ∧
      1 < num [2] 0 ∧ 2 < num (zeros 27 ++ [3]) 27 ∧ 1 < num (zeros 28 ++ [2]) 28 := by decide +kernel
theorem test_hypotheses_reads :
    ready 8 [2, 3, 0, 0, 32, 32] State.reset ∧ Asks (reqOf 8 [2, 3, 0, 0, 32, 32]) 8 6 ∧
      targetOf 2 4 0 0 = none ∧ (Target.curve 3).entries ≤ 33 ∧ (Target.die 0 (.windows 0)).readLimit = 32 ∧
      ready 12 [3, 0, 0, 0, 0, 16] serving ∧ Asks (reqOf 12 [3, 0, 0, 0, 0, 16]) 12 6 ∧
      (reqOf 12 [3, 0, 0, 0, 0, 16]).arg 0 = (3 : Fin 4).val ∧ (reqOf 12 [3, 0, 0, 0, 0, 16]).arg 5 ≤ 16 ∧
      16 < (reqOf 12 [3, 0, 0, 0, 0, 17]).arg 5 ∧ 3 < (reqOf 12 [4, 0, 0, 0, 0, 1]).arg 0 ∧
      (begun (asked 12 [3, 0, 0, 0, 0, 16] serving) (reqOf 12 [3, 0, 0, 0, 0, 16]) []).lmp.geometry = some geometry0 ∧
      (begun (asked 12 [3, 0, 0, 0, 0, 16] State.reset) (reqOf 12 [3, 0, 0, 0, 0, 16]) []).dlb.service = .unconfigured ∧
      ready 13 [3, 15] serving ∧ Asks (reqOf 13 [3, 15]) 13 2 ∧ (reqOf 13 [3, 15]).arg 1 ≤ 15 ∧
      15 < (reqOf 13 [3, 16]).arg 1 ∧ 3 < (reqOf 13 [4, 0]).arg 0 := by decide +kernel
theorem test_hypotheses_table_entries :
    (State.reset.heads[(15 : Fin 16)]).written = false ∧
      (((headed .measure).modHead 15 fun h => { h with written := true }).heads[(15 : Fin 16)]).written = true ∧
      (State.reset.dlb.slots[(7 : Fin 8)]).state = .empty ∧ (serving.dlb.slots[(0 : Fin 8)]).state ≠ .empty ∧
      (∀ i < 33, (filledCurves[(3 : Fin 4)]).written.getLsbD i = true) ∧
      (∃ i < 33, (State.reset.tmu.curves[(0 : Fin 4)]).written.getLsbD i = false) := by decide +kernel
theorem test_hypotheses_cell_records :
    let r := serving.lmp.rings[(0 : Fin 4)]
    r.at ((2 : Word32).toNat % 4096) = none ∧
      r.at ((4097 : Word32).toNat % 4096) = some (Cell.made 1 .closed false 7) ∧
      (Cell.made 1 .closed false 7).number ≠ 4097 ∧ r.at ((1 : Word32).toNat % 4096) = some (Cell.made 1 .closed false 7) ∧
      (Cell.made 1 .closed false 7).number = 1 ∧ cellReading r 2 = [2] ∧ cellReading r 4097 = [1, 0, 0, 0, 1] := by
  decide +kernel

theorem test_hypotheses_counting :
    { State.reset.ctb with frozen := true }.frozen = true ∧ State.reset.ctb.frozen = false := by decide +kernel
theorem test_hypotheses_counter_requests :
    let u (f : Bool) (a : List Nat) : State :=
      begun (asked 14 a { State.reset with ctb := { State.reset.ctb with frozen := f } }) (reqOf 14 a) []
    ready 14 [0, 4, 0] State.reset ∧ Asks (reqOf 14 [0, 4, 0]) 14 3 ∧ (reqOf 14 [0, 4, 0]).arg 0 = 0 ∧
      3 < (reqOf 14 [0, 4, 0]).arg 1 ∧ instanceOf 3 1 = none ∧ instanceOf 0 9 = none ∧
      instanceOf 0 8 = some (.port 8) ∧ instanceOf 3 0 = some .global ∧ ready 14 [6, 0, 0] State.reset ∧
      (reqOf 14 [6, 0, 0]).arg 0 = 6 ∧ ready 14 [1, 1, 15] State.reset ∧ (u true [1, 1, 15]).ctb.frozen = true ∧
      (u false [1, 1, 15]).ctb.frozen = false ∧ ready 14 [2, 3, 0] State.reset ∧ (reqOf 14 [2, 3, 0]).arg 1 = 3 ∧
      ready 14 [3, 0, 0] State.reset ∧ ready 14 [4, 0, 0] State.reset ∧ ready 14 [5, 0, 0] State.reset := by
  decide +kernel
theorem test_hypotheses_counter_indices :
    instanceOf 1 15 = some (.head 15) ∧ instanceOf 1 16 = none ∧ instanceOf 2 3 = some (.strand 3) ∧
      instanceOf 2 4 = none := by decide +kernel

theorem test_hypotheses_config_requests :
    ready 2 [0, 18, 0, 0, 0, 0, 0, 0, 0, 0, 1] State.reset ∧ sizeSound 2 11 = true ∧
      ready 3 [0, 18, 0, 1, 0, 0] State.reset ∧
      (reqOf 3 [0, 18, 0, 1, 0, 0]).args = ([(18, 0), (256, 0)].map fun p => beNat 2 p.1 ++ beNat 1 p.2).flatten ∧
      (∀ p ∈ [((18 : Nat), (0 : Nat)), (256, 0)], p.1 < 65536 ∧ p.2 < 256) ∧
      State.reset.tmu.strands[(3 : Fin 4)] = .none ∧ timed.tmu.strands[(3 : Fin 4)] = .fresh 500 0 1000 ∧
      (timed.now - 0) % 1000 = 0 := by decide +kernel
theorem test_hypotheses_config_entries :
    let e : ConfigEntry := { item := 22, index := 1, value := bytes8 (small 7) }
    (e.item < 65536 ∧ e.index < 256 ∧ e.value.length = 8) ∧
      configEntries (bytes8 ([0, 22, 1] ++ small 7)) = [e] ∧
      (setEntry 0 { statuses := [], results := [], state := State.reset } e).results.map List.length = [12] ∧
      (setEntry 0 { statuses := [], results := [], state := State.reset } { e with index := 0 }).results.map
        List.length = [15] := by decide +kernel
theorem test_hypotheses_readings :
    let s : State := { timed with tmu := { timed.tmu with strands := timed.tmu.strands.set 1 (.stale 7 0) } }
    s.tmu.strands[(1 : Fin 4)] = .stale 7 0 ∧ serving.lmp.geometry = some geometry0 ∧
      State.reset.lmp.geometry = none ∧ (itemReading 69 0 serving).map List.length = some 81 ∧
      itemReading 1 8 s = none ∧ itemReading 28 4 s = none ∧ itemReading 39 2 s = none ∧ itemReading 40 0 s = none ∧
      itemReading 63 0 s = none ∧ itemReading 66 8 s = none ∧ itemReading 67 4 s = none ∧ itemReading 72 0 s = none ∧
      itemReading 22 0 s = some (bytes8 (small 250)) := by decide +kernel

/-- A request that writes an item is ready, and its value is v. -/
def sets (item index : Nat) (value : List Nat) (v : Int) (s : State) : Bool :=
  decide (Ready (setting item index value s) (setOf item index value) []) &&
    decide (Writes (setOf item index value) item index (bytes8 value)) && decide (readInt (bytes8 value) = v)

theorem test_hypotheses_port_settings :
    sets 1 7 (small 2) 2 State.reset ∧ sets 2 7 (small 2) 2 State.reset ∧ sets 3 7 (small 15) 15 State.reset ∧
      sets 4 7 (small 1) 1 State.reset ∧ sets 5 7 (small 2) 2 State.reset ∧ sets 6 7 (small 17) 17 State.reset ∧
      sets 10 7 (small 256) 256 State.reset ∧ sets 11 0 (small 8) 8 State.reset ∧ positionIn roleList .off = 2 ∧
      positionIn admissionList .stamp = 2 ∧ positionIn dispositionList .uplink = 1 ∧
      positionIn forwardList .decimated = 2 ∧ (State.reset.ports[(7 : Fin 8)]).role = .off ∧
      ((inRole .pyro).ports[(0 : Fin 8)]).role ≠ .off := by decide +kernel
theorem test_hypotheses_pool_settings :
    let t (n : Nat) : State := State.reset.modPort 1 fun x => { x with reserve := n }
    let v (s : State) : State := s.modPort 0 fun x => { x with reserve := 255 }
    sets 7 0 (small 255) 255 (t 898) ∧ reserveSum (v (t 897)) = 1536 ∧ 1536 < reserveSum (v (t 898)) ∧
      sets 8 0 (small 4096) 4096 State.reset ∧ sets 9 0 [255, 255, 255, 255, 255, 255, 255, 255] (-1) State.reset ∧
      sets 12 0 (small 1025) 1025 State.reset := by decide +kernel
theorem test_hypotheses_reserve_in_use :
    let t : State := full.modPort 0 fun x => { x with reserve := 255 }
    sets 7 0 (small 255) 255 full ∧ reserveSum t ≤ 1536 ∧ 4096 - reserveSum t < sharedUse t ∧
      sharedUse (State.reset.modPort 0 fun x => { x with reserve := 255 }) ≤
        4096 - reserveSum (State.reset.modPort 0 fun x => { x with reserve := 255 }) := by decide +kernel
theorem test_hypotheses_uplink_settings :
    let a (value : List Nat) : Address := BitVec.ofNat 48 (natAt (bytes8 value) 2 6)
    sets 13 0 [0, 0, 1, 0, 0, 0, 0, 0] 1099511627776 State.reset ∧ (a [0, 0, 1, 0, 0, 0, 0, 0]).getLsbD 40 = true ∧
      natAt (bytes8 [0, 1, 0, 0, 0, 0, 0, 0]) 0 2 ≠ 0 ∧ sets 13 0 (small 0) 0 State.reset ∧
      (a (small 0)).getLsbD 40 = false ∧ a (small 0) ≠ State.reset.upl.recorder ∧
      a [0, 0, 0x0A, 0x4E, 0x56, 0x24, 0x80, 0] = State.reset.upl.station ∧ sets 14 0 (small 5) 5 State.reset ∧
      sets 15 0 (small 5) 5 State.reset ∧ sets 16 0 (small 0x5FF) 0x5FF State.reset ∧
      sets 16 0 (small 0x600) 0x600 State.reset ∧ sets 16 0 (small 0xFFFF) 0xFFFF State.reset ∧
      sets 16 0 [0, 0, 0, 0, 0, 1, 0, 0] 0x10000 State.reset := by decide +kernel
theorem test_hypotheses_agent_settings :
    let f : State := { State.reset with mga := { State.reset.mga with fixed := 5 } }
    let u (s : State) (v : Nat) : State := begun (setting 37 0 (small v) s) (setOf 37 0 (small v)) []
    sets 35 0 (small 1) 1 State.reset ∧ positionIn schedList .quota = 1 ∧ sets 37 0 (small 0) 0 State.reset ∧
      sets 37 0 (small 1) 1 State.reset ∧ sets 37 0 (small 2) 2 f ∧ (u f 2).mga.fixed ≠ 0 ∧
      sets 37 0 (small 2) 2 State.reset ∧ (u State.reset 2).mga.fixed = 0 ∧ sets 38 0 (small 0) 0 State.reset ∧
      sets 38 0 (small 1) 1 State.reset ∧ (BitVec.ofNat 48 (natAt (bytes8 (small 1)) 2 6) : Address).getLsbD 40 = false := by
  decide +kernel
theorem test_hypotheses_line_settings :
    sets 17 0 (small 1) 1 State.reset ∧ positionIn senseList .inverted = 1 ∧ sets 18 0 (small 0) 0 State.reset ∧
      sets 19 0 (small 0) 0 State.reset ∧ sets 20 0 (small 2) 2 serving ∧ positionIn triggerList .time = 2 ∧
      sets 21 0 (small 65535) 65535 (armed .pitch 20 250 true) ∧
      (begun (setting 21 0 (small 65535) (armed .pitch 20 250 true)) (setOf 21 0 (small 65535)) []).dlb.service = .inspecting ∧
      sets 22 0 (small 99) 99 State.reset ∧ sets 23 0 (small 249) 249 State.reset := by decide +kernel
theorem test_hypotheses_inspection_settings :
    sets 24 0 (small 50001) 50001 State.reset ∧ sets 25 0 (small 0) 0 State.reset ∧ sets 26 0 (small 255) 255 State.reset ∧
      sets 27 0 (small 9) 9 State.reset ∧ sets 28 3 (small 1001) 1001 State.reset ∧ sets 29 0 (small 99) 99 State.reset ∧
      sets 30 0 (small 1) 1 State.reset ∧ sets 31 0 [0, 0, 0, 0, 255, 255, 255, 255] (0xFFFFFFFF#32).toNat State.reset ∧
      sets 32 0 (small 0) (0#32).toNat State.reset ∧ sets 33 0 (small 15) (15#4).toNat State.reset ∧
      sets 34 0 (small 10001) 10001 State.reset ∧ sets 36 3 (small 16) 16 State.reset ∧
      sets 39 1 (small 271) (256 + (15 : Fin 16).val) State.reset := by decide +kernel
theorem test_hypotheses_refused_settings :
    sets 0 0 (small 0) 0 State.reset ∧ sets 40 0 (small 0) 0 State.reset ∧ sets 64 0 (small 0) 0 State.reset ∧
      sets 1 8 (small 0) 0 State.reset ∧ sets 28 4 (small 0) 0 State.reset ∧ sets 39 2 (small 0) 0 State.reset ∧
      sets 11 1 (small 0) 0 State.reset ∧ sets 1 0 (small 3) 3 State.reset ∧ sets 33 0 (small 16) 16 State.reset ∧
      sets 31 0 [0, 0, 0, 1, 0, 0, 0, 0] 0x100000000 State.reset ∧
      sets 37 0 [255, 255, 255, 255, 255, 255, 255, 255] (-1) State.reset := by decide +kernel
theorem test_hypotheses_misformed_settings :
    sets 15 0 [0, 1, 0, 0, 0, 0, 0, 0] 0x1000000000000 State.reset ∧ natAt (bytes8 [0, 1, 0, 0, 0, 0, 0, 0]) 0 2 ≠ 0 ∧
      sets 39 0 (small 16) 16 State.reset ∧ 15 < natAt (bytes8 (small 16)) 7 1 ∧
      sets 39 1 (small 512) 512 State.reset ∧ 1 < natAt (bytes8 (small 512)) 6 1 ∧
      sets 39 0 [0, 0, 0, 0, 0, 1, 0, 0] 65536 State.reset ∧ natAt (bytes8 [0, 0, 0, 0, 0, 1, 0, 0]) 0 6 ≠ 0 ∧
      seen .writeConfigItem (setting 39 1 (small 512) State.reset) (fun v => v.ctb.filters) =
        some State.reset.ctb.filters := by decide +kernel

theorem test_hypotheses_steps :
    (match step State.reset with
      | .next t => t.now
      | _ => 0) = 1 ∧ LibraryLaw State.reset ∧ PoolLaw State.reset ∧ PositionLaw State.reset ∧ RingLaw serving ∧
      QueueLaw serving ∧ ListLaw serving ∧ PoolLaw serving ∧ PositionLaw serving := by decide +kernel
theorem test_hypotheses_library :
    LibraryLaw serving ∧ (serving.dlb.slots[(0 : Fin 8)]).state = .inService := by decide +kernel

end Sys2Proof.Tests
end

section
/-! SUPPORT. The pool's arithmetic (R10–R12, R14): use counts, the change of the first frame a holder names, the
pool law, and what each operation on the held frames does to it. -/

namespace Sys2Proof.Machine

/-! ## Use counts (1.4, R10) -/

/-- Termwise smaller terms have a smaller sum. -/
theorem sum_map_le {α : Type} {f g : α → Nat} {l : List α} (h : ∀ x ∈ l, f x ≤ g x) :
    (l.map f).sum ≤ (l.map g).sum := by
  induction l with
  | nil => exact Nat.le_refl _
  | cons x l ih =>
    rw [List.map_cons, List.map_cons, List.sum_cons, List.sum_cons]
    exact Nat.add_le_add (h x (List.mem_cons_self ..)) (ih fun y hy => h y (List.mem_cons_of_mem x hy))

/-- Over a list without repetitions, two sums whose terms differ at one member alone. -/
theorem sum_map_differ {α : Type} {f g : α → Nat} {p : α} (h : ∀ q, q ≠ p → g q = f q) {l : List α}
    (hl : l.Nodup) (hp : p ∈ l) : (l.map g).sum + f p = (l.map f).sum + g p := by
  induction l with
  | nil => cases hp
  | cons x l ih =>
    obtain ⟨hx, hl⟩ := List.nodup_cons.1 hl
    rw [List.map_cons, List.map_cons, List.sum_cons, List.sum_cons]
    rcases List.mem_cons.1 hp with hpx | hp
    · have hrest : l.map g = l.map f :=
        List.map_congr_left fun q hq => h q fun hqp => hx (hpx ▸ hqp ▸ hq)
      rw [hrest, hpx]
      omega
    · have hxp : x ≠ p := fun hxp => hx (hxp ▸ hp)
      have hrest := ih hl hp
      rw [h x hxp]
      omega

/-- No frame, no blocks. -/
@[simp] theorem useCount_nil (p : Fin 8) : useCount [] p = 0 := rfl

/-- A frame counts its blocks on the port that admitted it. -/
@[simp] theorem useCount_cons (f : HeldFrame) (held : List HeldFrame) (p : Fin 8) :
    useCount (f :: held) p = (if f.port = p then f.blocks else 0) + useCount held p := by
  by_cases h : f.port = p <;> simp [useCount, h]

/-- Use counts add up over the parts of the held list. -/
@[simp] theorem useCount_append (l r : List HeldFrame) (p : Fin 8) :
    useCount (l ++ r) p = useCount l p + useCount r p := by
  simp [useCount, List.filter_append]

/-- A change of a held frame that keeps its port and its bytes, and with them the blocks it counts. -/
abbrev KeepsFrame (f : HeldFrame → HeldFrame) : Prop := ∀ x, (f x).port = x.port ∧ (f x).bytes = x.bytes

/-- A frame with its port and bytes kept counts the same. -/
theorem KeepsFrame.useCount_cons {f : HeldFrame → HeldFrame} (hf : KeepsFrame f) (x : HeldFrame)
    (held : List HeldFrame) (p : Fin 8) : useCount (f x :: held) p = useCount (x :: held) p := by
  simp [HeldFrame.blocks, hf x]

/-! ## The first frame a holder names (R11) -/

/-- The first selected frame is changed in its place, or leaves when no holder keeps it; the others stay. -/
theorem changeFirst_append {p : HeldFrame → Bool} {f : HeldFrame → HeldFrame} {before : List HeldFrame}
    {x : HeldFrame} (after : List HeldFrame) (hb : ∀ y ∈ before, p y = false) (hx : p x = true) :
    changeFirst p f (before ++ x :: after) =
      before ++ if (f x).isHeld then f x :: after else after := by
  induction before with
  | nil => simp [changeFirst, hx]
  | cons y before ih =>
    have hy := hb y (List.mem_cons_self ..)
    simp [changeFirst, hy, ih fun z hz => hb z (List.mem_cons_of_mem y hz)]

/-- The first selected frame of a list that is split before it. -/
theorem find?_append_first {p : HeldFrame → Bool} {before : List HeldFrame} {x : HeldFrame}
    (after : List HeldFrame) (hb : ∀ y ∈ before, p y = false) (hx : p x = true) :
    (before ++ x :: after).find? p = some x :=
  List.find?_eq_some_iff_append.2 ⟨hx, before, after, rfl, fun y hy => by simp [hb y hy]⟩

/-- A holder that lets go of a frame raises no port's use count. -/
theorem useCount_changeFirst_le {p : HeldFrame → Bool} {f : HeldFrame → HeldFrame} (hf : KeepsFrame f)
    (held : List HeldFrame) (q : Fin 8) : useCount (changeFirst p f held) q ≤ useCount held q := by
  induction held with
  | nil => exact Nat.le_refl _
  | cons x held ih =>
    unfold changeFirst
    split
    · split
      · exact Nat.le_of_eq (hf.useCount_cons x held q)
      · simp
    · simpa using ih

/-! ## The pool law (R10, R12) -/

/-- With the same reserves and no use count raised, the pool law stays. -/
theorem PoolLaw.of_le {s t : State} (h : PoolLaw s)
    (hr : ∀ p : Fin 8, (t.ports[p]).reserve = (s.ports[p]).reserve)
    (hu : ∀ p, useCount t.pool.held p ≤ useCount s.pool.held p) : PoolLaw t := by
  obtain ⟨hsum, huse⟩ := h
  have hreserves : ((List.finRange 8).map fun p => (t.ports[p]).reserve) =
      (List.finRange 8).map fun p => (s.ports[p]).reserve := List.map_congr_left fun p _ => hr p
  refine ⟨hreserves ▸ hsum, hreserves ▸ Nat.le_trans (sum_map_le fun p _ => ?_) huse⟩
  rw [hr p]
  exact Nat.sub_le_sub_right (hu p) _

/-- The parts that the pool law does not speak of. -/
abbrev besidePool : List Part :=
  [.now, .inReset, .pins, .pending, .ports, .sending, .settings, .station, .acc, .latch, .phase, .trg, .heads,
    .slots, .voids, .temps, .curves, .service, .dies, .gev, .geometry, .rings, .lines, .stillness, .marks,
    .blanking, .pieces, .log, .queueA, .queueB, .queueC, .reserved, .turn, .binding, .input, .window, .alarms,
    .resetPhase, .counters]

/-- The reserves of a state in which the part of that name is kept. -/
theorem reserve_kept {l : List Part} {s t : State} (h : Only l s t)
    (hl : l.contains .reserves = false := by decide) (p : Fin 8) :
    (t.ports[p]).reserve = (s.ports[p]).reserve := by
  have hv : (Vector.ofFn fun p : Fin 8 => (t.ports[p]).reserve) =
      Vector.ofFn fun p : Fin 8 => (s.ports[p]).reserve := h.kept .reserves hl
  simpa using congrArg (fun v : Vector Nat 8 => v[p]) hv

/-- What leaves reserves and held frames alone keeps the pool law. -/
theorem PoolLaw.beside {s t : State} (h : PoolLaw s) (k : Only besidePool s t) : PoolLaw t :=
  h.of_le (reserve_kept k) fun p => Nat.le_of_eq (congrArg (useCount · p) (k.kept .held))

/-- A count keeps the pool law. -/
theorem PoolLaw.counted {s : State} (h : PoolLaw s) (i : Fin 9) (c : PortCounter) : PoolLaw (countPort i c s) :=
  h.beside (countPort_only Only.rfl)

/-- The flow-control check keeps the pool law. -/
theorem PoolLaw.flowControlCheck {s : State} (h : PoolLaw s) (p : Fin 8) : PoolLaw (flowControlCheck p s) :=
  h.beside (flowControlCheck_only Only.rfl)

/-- Held frames replaced by ones that count no more on any port keep the pool law. -/
theorem PoolLaw.setHeld_le {s : State} (h : PoolLaw s) {held : List HeldFrame}
    (hu : ∀ p, useCount held p ≤ useCount s.pool.held p) : PoolLaw (setHeld held s) :=
  h.of_le (fun _ => rfl) hu

/-- Over the eight ports, two sums whose terms differ at one port alone. -/
theorem sum_ports_differ {f g : Fin 8 → Nat} (p : Fin 8) (h : ∀ q, q ≠ p → g q = f q) :
    ((List.finRange 8).map g).sum + f p = ((List.finRange 8).map f).sum + g p :=
  sum_map_differ h (by decide) (List.mem_finRange p)

/-- A frame that is granted its blocks keeps the pool law: what it draws beyond its port's reserve is free. -/
theorem PoolLaw.granted {s : State} (h : PoolLaw s) {f : HeldFrame}
    (hg : grantFits f.port f.blocks s = true) : PoolLaw (setHeld (s.pool.held ++ [f]) s) := by
  obtain ⟨hsum, huse⟩ := h
  refine ⟨hsum, ?_⟩
  have hdiffer := sum_ports_differ (f := sharedDraw s)
    (g := sharedDraw (setHeld (s.pool.held ++ [f]) s)) f.port
    fun q hq => by simp [sharedDraw, hq.symm]
  have hdraw : sharedDraw (setHeld (s.pool.held ++ [f]) s) f.port =
      useCount s.pool.held f.port + f.blocks - (s.ports[f.port]).reserve := by simp [sharedDraw]
  have hfits := of_decide_eq_true hg
  have hfree : freeShared s =
    4096 - ((List.finRange 8).map fun p => (s.ports[p]).reserve).sum - ((List.finRange 8).map (sharedDraw s)).sum :=
    rfl
  change ((List.finRange 8).map (sharedDraw s)).sum ≤ _ at huse
  change ((List.finRange 8).map (sharedDraw (setHeld (s.pool.held ++ [f]) s))).sum ≤
    4096 - ((List.finRange 8).map fun p => (s.ports[p]).reserve).sum
  have hold : sharedDraw s f.port = useCount s.pool.held f.port - (s.ports[f.port]).reserve := rfl
  omega

/-! ## The pool at work (R10–R14) -/

/-- The oldest entry evicted keeps the pool law. -/
theorem PoolLaw.evictOldest {s : State} (h : PoolLaw s) : PoolLaw (evictOldest s) := by
  unfold Machine.evictOldest
  split
  · exact h
  · have hchanged := h.setHeld_le (useCount_changeFirst_le (p := HeldFrame.inQueueD) (f := HeldFrame.dropD)
      (fun _ => ⟨rfl, rfl⟩) s.pool.held)
    dsimp only
    split
    · exact hchanged.counted _ _
    · exact (hchanged.counted _ _).flowControlCheck _

/-- The eviction check keeps the pool law. -/
theorem PoolLaw.evictionCheck {s : State} (h : PoolLaw s) : PoolLaw (evictionCheck s) := by
  unfold Machine.evictionCheck
  generalize s.pool.held.length = fuel
  induction fuel generalizing s with
  | zero => exact h
  | succ fuel ih =>
    unfold evictLoop
    split
    · exact ih h.evictOldest
    · exact h

/-- The two checks after a grant, a refusal or a release keep the pool law. -/
theorem PoolLaw.poolChecks {s : State} (h : PoolLaw s) (p : Fin 8) : PoolLaw (poolChecks p s) :=
  (h.flowControlCheck p).evictionCheck

/-- A holder that lets go of its first frame keeps the pool law. -/
theorem PoolLaw.releaseFirst {s : State} (h : PoolLaw s) (holds : HeldFrame → Bool)
    {letGo : HeldFrame → HeldFrame} (hf : KeepsFrame letGo) : PoolLaw (releaseFirst holds letGo s) := by
  unfold Machine.releaseFirst
  split
  · exact h
  · have hchanged := h.setHeld_le (useCount_changeFirst_le (p := holds) hf s.pool.held)
    dsimp only
    split
    · exact hchanged
    · exact hchanged.poolChecks _

/-- A frame that asks for its blocks, granted or dropped, keeps the pool law. -/
theorem PoolLaw.takeBlocks {s : State} (h : PoolLaw s) (f : HeldFrame) {onGrant : State → State}
    (hg : ∀ u, PoolLaw u → PoolLaw (onGrant u)) : PoolLaw (takeBlocks f onGrant s) := by
  unfold Machine.takeBlocks
  split
  · rename_i hfits
    have hadmitted := (h.granted hfits).counted f.port.castSucc .admitted
    dsimp only
    split
    · exact (hg _ (hadmitted.counted _ _)).poolChecks _
    · exact (hg _ hadmitted).poolChecks _
  · exact (h.counted _ _).poolChecks _

/-- A reserve that is taken keeps the pool law, by the two checks it has passed (R12). -/
theorem PoolLaw.writeReserve {s : State} (h : PoolLaw s) (p : Fin 8) (v : Int) :
    PoolLaw (writeReserve p v s).2 := by
  unfold Machine.writeReserve
  dsimp only
  split
  · exact h
  · split
    · exact h
    · rename_i hsum huse
      exact PoolLaw.evictionCheck ⟨Nat.le_of_not_lt hsum, Nat.le_of_not_lt huse⟩

end Sys2Proof.Machine
end

section
/-! SUPPORT. What the executions of requests can change, in the parts of Laws/Footprint, and what a row of the
command table keeps when its execution keeps it. -/

namespace Sys2Proof.Machine

/-! ## Executions of requests (spec/11 11.3) -/

/-- IDENTIFY reads. -/
theorem identify_only {r : Request} {l : List Part} {s : State} : Only l s (identify r s).2 := Only.rfl

/-- GET_CONFIG reads. -/
theorem getConfig_only {r : Request} {l : List Part} {s : State} : Only l s (getConfig r s).2 := Only.rfl

/-- TABLE_READ reads. -/
theorem tableRead_only {r : Request} {l : List Part} {s : State} : Only l s (tableRead r s).2 := by
  unfold tableRead
  split <;> exact Only.rfl

/-- READ_CELLS reads. -/
theorem readCells_only {r : Request} {l : List Part} {s : State} : Only l s (readCells r s).2 := by
  unfold readCells
  dsimp only
  split
  · exact Only.rfl
  · split
    · exact Only.rfl
    · split <;> exact Only.rfl

/-- READ_PIECES reads. -/
theorem readPieces_only {r : Request} {l : List Part} {s : State} : Only l s (readPieces r s).2 := by
  unfold readPieces
  dsimp only
  split
  · exact Only.rfl
  · split
    · exact Only.rfl
    · split <;> exact Only.rfl

/-- What a request on one scope of counters can change is what its effect there can. -/
theorem onInstance_only {r : Request} {f : CounterInstance → Reply × State} {l : List Part} {s : State}
    (hf : ∀ i, Only l s (f i).2) : Only l s (onInstance r s f).2 := by
  unfold onInstance
  split
  · split
    · exact hf _
    · exact Only.rfl
  · exact Only.rfl

/-- READ reads. -/
theorem readCounters_only {r : Request} {l : List Part} {s : State} : Only l s (readCounters r s).2 := by
  unfold readCounters
  split
  · exact onInstance_only fun _ => Only.rfl
  · exact Only.rfl

/-- What READ_CLEAR can change. -/
theorem readClear_only {r : Request} {l : List Part} {s : State}
    (hl : Within [.counters] l := by decide) : Only l s (readClear r s).2 :=
  onInstance_only fun i => by
    split
    · exact Only.rfl
    · exact setCounters_only Only.rfl hl

/-- What CLEAR_SCOPE can change. -/
theorem clearScope_only {r : Request} {l : List Part} {s : State}
    (hl : Within [.counters] l := by decide) : Only l s (clearScope r s).2 := by
  unfold clearScope
  split
  · split
    · exact Only.rfl
    · exact setCounters_only Only.rfl hl
  · exact Only.rfl

/-- What CLEAR_ALL can change. -/
theorem clearAll_only {r : Request} {l : List Part} {s : State}
    (hl : Within [.counters] l := by decide) : Only l s (clearAll r s).2 := by
  unfold clearAll
  split
  · exact Only.rfl
  · exact setCounters_only Only.rfl hl

/-- What FREEZE and UNFREEZE can change. -/
theorem setFreeze_only {b : Bool} {r : Request} {l : List Part} {s : State}
    (hl : Within [.counters] l := by decide) : Only l s (setFreeze b r s).2 :=
  setCounters_only Only.rfl hl

/-- What CLEAR_ALARMS can change. -/
theorem clearAlarms_only {r : Request} {l : List Part} {s : State}
    (hl : Within [.alarms] l := by decide) : Only l s (clearAlarms r s).2 :=
  setAlarms_only Only.rfl hl

/-- What RESET can change. -/
theorem resetCommand_only {r : Request} {l : List Part} {s : State}
    (hl : Within [.resetPhase] l := by decide) : Only l s (resetCommand r s).2 :=
  Only.widen (fun b => by
    cases b with
    | resetPhase => exact .inl (by decide)
    | _ => exact .inr rfl) hl

/-- What SET_GEOMETRY can change. -/
theorem setGeometry_only {r : Request} {l : List Part} {s : State}
    (hl : Within ([.service] ++ flushParts) l := by decide) : Only l s (setGeometry r s).2 := by
  refine Only.widen (a := [.service] ++ flushParts) ?_ hl
  have stored : ∀ g : Option Geometry,
      Only ([.service] ++ flushParts) s { s with lmp := { s.lmp with geometry := g } } := fun g b => by
    cases b with
    | geometry => exact .inl (by decide)
    | _ => exact .inr rfl
  unfold setGeometry
  dsimp only
  split
  · exact Only.rfl
  · split
    · split
      · exact Only.rfl
      · exact setService_only (flushMap_only (stored _))
    · exact Only.rfl

/-- What SET_HEAD_STATE can change. -/
theorem setHeadState_only {r : Request} {l : List Part} {s : State}
    (hl : Within [.heads, .alarms] l := by decide) : Only l s (setHeadState r s).2 := by
  refine Only.widen (a := [.heads, .alarms]) ?_ hl
  unfold setHeadState
  split
  · split
    · simp only [answer, putHeadState]
      split
      · exact fencedClearTest_only (modHead_only Only.rfl)
      · exact modHead_only Only.rfl
    · exact Only.rfl
  · exact Only.rfl

/-- What SELECT_DIE can change. -/
theorem selectDie_only {r : Request} {l : List Part} {s : State}
    (hl : Within ([.service, .trg, .stillness] ++ dieParts) l := by decide) :
    Only l s (selectDie r s).2 := by
  refine Only.widen (a := [.service, .trg, .stillness] ++ dieParts) ?_ hl
  unfold selectDie
  split
  · exact Only.rfl
  · split
    · exact startInspection_only Only.rfl
    · exact stageDie_only Only.rfl
    · exact Only.rfl

/-- What DEACTIVATE can change. -/
theorem deactivate_only {r : Request} {l : List Part} {s : State}
    (hl : Within ([.dies, .service, .trg, .stillness] ++ flushParts) l := by decide) :
    Only l s (deactivate r s).2 := by
  unfold deactivate
  split
  · exact endInspection_only Only.rfl hl
  · exact Only.rfl

/-- What FLUSH can change. -/
theorem flushCommand_only {r : Request} {l : List Part} {s : State}
    (hl : Within flushParts l := by decide) : Only l s (flushCommand r s).2 := by
  unfold flushCommand
  split
  · exact Only.rfl
  · exact flushMap_only Only.rfl hl

/-- What TABLE_OPEN can change. -/
theorem tableOpen_only {r : Request} {l : List Part} {s : State}
    (hl : Within [.window, .dies] l := by decide) : Only l s (tableOpen r s).2 := by
  refine Only.widen (a := [.window, .dies]) ?_ hl
  unfold tableOpen
  split
  · exact Only.rfl
  · dsimp only
    split
    · exact Only.rfl
    · simp only [answer, openWindow]
      split
      · exact modDie_only (setWindow_only Only.rfl)
      · exact setWindow_only Only.rfl

/-! ## Entries of tables (R78) -/

/-- The parts that an entry of a table can change. -/
abbrev tableParts : List Part := [.heads, .curves, .dies]

/-- What a HEADS entry that is stored can change. -/
theorem writeHead_only {h : Fin 16} {bs : List Byte} {s t : State} {c : Bool}
    (hw : writeHead h bs s = .stored c t) : Only tableParts s t := by
  unfold writeHead at hw
  dsimp only at hw
  split at hw
  · cases hw
  · split at hw
    · cases hw
    · split at hw
      · cases hw
        exact modHead_only Only.rfl
      · cases hw

/-- What a CURVE entry can change. -/
theorem writeCurve_only {n : Fin 4} {i : Fin 33} {bs : List Byte} {s t : State} {c : Bool}
    (hw : writeCurve n i bs s = .stored c t) : Only tableParts s t := by
  cases hw
  intro b
  cases b with
  | curves => exact .inl (by decide)
  | _ => exact .inr rfl

/-- What an entry of a die record that is stored can change. -/
theorem writeDie_only {k : Fin 8} {part : DiePart} {i : Nat} {bs : List Byte} {s t : State} {c : Bool}
    (hw : writeDie k part i bs s = .stored c t) : Only tableParts s t := by
  unfold writeDie at hw
  split at hw
  · cases hw
    exact modDie_only Only.rfl
  · cases hw

/-- What a table entry that is stored can change. -/
theorem writeEntry_only {target : Target} {i : Nat} {bs : List Byte} {s t : State} {c : Bool}
    (hw : writeEntry target i bs s = .stored c t) : Only tableParts s t := by
  unfold writeEntry at hw
  split at hw
  · split at hw
    · exact writeHead_only hw
    · cases hw
  · split at hw
    · exact writeCurve_only hw
    · cases hw
  · exact writeDie_only hw

/-- What one entry of a TABLE_DATA request can change. -/
theorem takeEntry_only {acc : DataAccount × State} {entry : List Byte × Nat} :
    Only ([.window] ++ tableParts) acc.2 (takeEntry acc entry).2 := by
  obtain ⟨a, s⟩ := acc
  unfold takeEntry
  dsimp only
  split
  · exact Only.rfl
  · split
    · split
      · exact setWindow_only Only.rfl
      · rename_i hw
        exact setWindow_only ((writeEntry_only hw).widen (by decide))
    · exact setWindow_only Only.rfl

/-- What TABLE_DATA can change. -/
theorem tableData_only {r : Request} {l : List Part} {s : State}
    (hl : Within ([.window] ++ tableParts) l := by decide) : Only l s (tableData r s).2 := by
  refine Only.widen (a := [.window] ++ tableParts) ?_ hl
  have taken : ∀ (es : List (List Byte × Nat)) (acc : DataAccount × State),
      Only ([.window] ++ tableParts) acc.2 (es.foldl takeEntry acc).2 := fun es => by
    induction es with
    | nil => exact fun _ => Only.rfl
    | cons e es ih => exact fun acc => takeEntry_only.trans (ih _)
  unfold tableData
  split
  · exact Only.rfl
  · exact taken _ (_, s)

/-! ## Rows of the command table -/

/-- The parts that the taking of a request and its response can change, whatever is executed between. -/
abbrev requestParts : List Part := [.input, .reserved, .binding, .window, .dies, .queueA]

/-- The judgement of a taken request keeps what the closing of the table window and the execution keep. -/
theorem judgeRequest_keeps {P : State → Prop} {sizeOk : Nat → Bool} {run : Execution} {r : Request} {s : State}
    (hclose : ∀ s, P s → P (closeWindow s)) (hrun : ∀ r s, P s → P (run r s).2) (hs : P s) :
    P (judgeRequest sizeOk run r s).2 := by
  have opened : P (if keepsWindow r.command then s else closeWindow s) := by
    split
    · exact hs
    · exact hclose s hs
  unfold judgeRequest
  split
  · dsimp only
    split
    · exact hrun r _ opened
    · exact opened
  · exact hs

/-- A row keeps what the taking and answering of a request and its own execution keep. -/
theorem takeRequest_keeps {P : State → Prop} (hP : ∀ s t, Only requestParts s t → P s → P t)
    {run : Execution} (hrun : ∀ r s, P s → P (run r s).2) (selects : Request → Bool) (sizeOk : Nat → Bool)
    {s : State} (hs : P s) : P (takeRequest selects sizeOk run s) := by
  unfold takeRequest
  split
  · exact hs
  · rename_i r rest _
    split
    · refine hP _ _ (respond_only Only.rfl)
        (judgeRequest_keeps (fun u => hP _ _ (closeWindow_only Only.rfl)) hrun ?_)
      have hclaimed : Only requestParts s
          { s with mga := { s.mga with input := rest }, egs := { s.egs with reserved := true } } := fun b => by
        cases b with
        | input | reserved => exact .inl (by decide)
        | _ => exact .inr rfl
      exact hP s _ (bindFirst_only hclaimed) hs
    · exact hs

/-- A SET_CONFIG request keeps what every entry keeps. -/
theorem setConfig_keeps {P : State → Prop} (hP : ∀ a e s, P s → P (writeItem a e s).2) (r : Request)
    {s : State} (hs : P s) : P (setConfig r s).2 := by
  have entries : ∀ (es : List ConfigEntry) (acc : Results), P acc.state →
      P (es.foldl (setEntry r.source) acc).state := fun es => by
    induction es with
    | nil => exact fun _ h => h
    | cons e es ih => exact fun acc h => ih _ (hP _ _ _ h)
  exact entries _ _ hs

/-! ## Written items (11.4) -/

/-- An item at an index in its range, or a refusal. -/
theorem atIndex_keeps {P : State → Prop} {n index : Nat} {s : State} {f : Fin n → Written} (hs : P s)
    (hf : ∀ i, P (f i).2) : P (atIndex n index s f).2 := by
  unfold atIndex
  split
  · exact hf _
  · exact hs

/-- An item at index 0 alone, or a refusal. -/
theorem atZero_keeps {P : State → Prop} {index : Nat} {s : State} {w : Written} (hs : P s) (hw : P w.2) :
    P (atZero index s w).2 := by
  unfold atZero
  split
  · exact hw
  · exact hs

/-- A coded value, or a refusal. -/
theorem withCode_keeps {P : State → Prop} {α : Type} {codes : List α} {v : Int} {s : State} {f : α → Written}
    (hs : P s) (hf : ∀ x, P (f x).2) : P (withCode codes v s f).2 := by
  unfold withCode
  split
  · exact hf _
  · exact hs

/-- A value in a range, or a refusal. -/
theorem withinRange_keeps {P : State → Prop} {lo hi v : Int} {s : State} {f : Nat → Written} (hs : P s)
    (hf : ∀ n, P (f n).2) : P (withinRange lo hi v s f).2 := by
  unfold withinRange
  split
  · exact hf _
  · exact hs

/-- An address, or a refusal. -/
theorem withAddress_keeps {P : State → Prop} {value : List Byte} {s : State} {f : Address → Written}
    (hs : P s) (hf : ∀ a, P (f a).2) : P (withAddress value s f).2 := by
  unfold withAddress
  split
  · exact hf _
  · exact hs

end Sys2Proof.Machine
end

section
/-! SUPPORT. What the writing of each configuration item can change (11.4), in the parts of Laws/Footprint. -/

namespace Sys2Proof.Machine

/-! ## Settings of each unit -/

/-- The eviction level written. -/
theorem pool_settings_only {x : Pool} {l : List Part} {s : State} (hHeld : x.held = s.pool.held)
    (hl : Within [.settings] l := by decide) : Only l s { s with pool := x } :=
  Only.widen (fun b => by
    cases b with
    | held => exact .inr hHeld
    | settings => exact .inl (by decide)
    | _ => exact .inr rfl) hl

/-- Settings of the uplink written. -/
theorem upl_settings_only {x : Uplink} {l : List Part} {s : State} (hSending : x.sending = s.upl.sending)
    (hl : Within [.settings] l := by decide) : Only l s { s with upl := x } :=
  Only.widen (fun b => by
    cases b with
    | sending => exact .inr hSending
    | settings => exact .inl (by decide)
    | _ => exact .inr rfl) hl

/-- Settings of the position tracker written. -/
theorem pos_settings_only {x : Position} {l : List Part} {s : State} (hAcc : x.acc = s.pos.acc)
    (hStation : x.station = s.pos.station) (hLatch : x.latch = s.pos.latch) (hPhase : x.phase = s.pos.phase)
    (hl : Within [.settings] l := by decide) : Only l s { s with pos := x } :=
  Only.widen (fun b => by
    cases b with
    | acc => exact .inr hAcc
    | station => exact .inr hStation
    | latch => exact .inr hLatch
    | phase => exact .inr hPhase
    | settings => exact .inl (by decide)
    | _ => exact .inr rfl) hl

/-- Settings of the section assembly unit written. -/
theorem sau_settings_only {x : Assembly} {l : List Part} {s : State} (hSlots : x.slots = s.sau.slots)
    (hVoidList : x.voidList = s.sau.voidList)
    (hl : Within [.settings] l := by decide) : Only l s { s with sau := x } :=
  Only.widen (fun b => by
    cases b with
    | slots => exact .inr hSlots
    | voids => exact .inr hVoidList
    | settings => exact .inl (by decide)
    | _ => exact .inr rfl) hl

/-- Settings of the temperature unit written. -/
theorem tmu_settings_only {x : Thermal} {l : List Part} {s : State} (hStrands : x.strands = s.tmu.strands)
    (hCurves : x.curves = s.tmu.curves)
    (hl : Within [.settings] l := by decide) : Only l s { s with tmu := x } :=
  Only.widen (fun b => by
    cases b with
    | temps => exact .inr hStrands
    | curves => exact .inr hCurves
    | settings => exact .inl (by decide)
    | _ => exact .inr rfl) hl

/-- Settings of the event and mark unit written. -/
theorem emu_settings_only {x : Events} {l : List Part} {s : State} (hLines : x.lines = s.emu.lines)
    (hStillness : x.stillness = s.emu.stillness) (hPending : x.pending = s.emu.pending)
    (hBlanking : x.blanking = s.emu.blanking)
    (hl : Within [.settings] l := by decide) : Only l s { s with emu := x } :=
  Only.widen (fun b => by
    cases b with
    | lines => exact .inr hLines
    | stillness => exact .inr hStillness
    | marks => exact .inr hPending
    | blanking => exact .inr hBlanking
    | settings => exact .inl (by decide)
    | _ => exact .inr rfl) hl

/-- The gate hold time written. -/
theorem pcu_settings_only {x : Pieces} {l : List Part} {s : State} (hStrands : x.strands = s.pcu.strands)
    (hLog : x.log = s.pcu.log)
    (hl : Within [.settings] l := by decide) : Only l s { s with pcu := x } :=
  Only.widen (fun b => by
    cases b with
    | pieces => exact .inr hStrands
    | log => exact .inr hLog
    | settings => exact .inl (by decide)
    | _ => exact .inr rfl) hl

/-- The lines' filters replaced. -/
theorem lines_only {x : Vector LineFilter 4} {l : List Part} {s : State} (hl : Within [.lines] l := by decide) :
    Only l s { s with emu := { s.emu with lines := x } } :=
  Only.widen (fun b => by
    cases b with
    | lines => exact .inl (by decide)
    | _ => exact .inr rfl) hl

/-- The mirror source written. -/
theorem mirror_only {x : Option (Fin 8)} {l : List Part} {s : State}
    (hl : Within [.settings] l := by decide) : Only l s { s with mirror := x } :=
  Only.widen (fun b => by
    cases b with
    | settings => exact .inl (by decide)
    | _ => exact .inr rfl) hl

/-- The trigger generator's record replaced. -/
theorem trg_only {x : Trigger} {l : List Part} {s : State}
    (hl : Within [.trg] l := by decide) : Only l s { s with trg := x } :=
  Only.widen (fun b => by
    cases b with
    | trg => exact .inl (by decide)
    | _ => exact .inr rfl) hl

/-! ## Head port items -/

/-- A role write keeps the reserve. -/
theorem writeRole_reserve (r : Role) (x : Port) : (x.writeRole r).reserve = x.reserve := by
  cases r
  · simp only [Port.writeRole]
    split
    · exact raise_reserve _ _
    · rfl
  · simp only [Port.writeRole]
    split
    · exact raise_reserve _ _
    · rfl
  · rfl

/-- What a role write can change. -/
theorem writeRole_only {p : Fin 8} {r : Role} {l : List Part} {s : State}
    (hl : Within [.ports, .trg] l := by decide) : Only l s (writeRole p r s) := by
  refine Only.widen (a := [.ports, .trg]) ?_ hl
  have hport : Only [.ports, .trg] s (s.modPort p (Port.writeRole r)) :=
    modPort_kept Only.rfl (writeRole_reserve r)
  have hchecked : Only [.ports, .trg] s
      (if decide ((s.ports[p]).role = .off) then flowControlCheck p (s.modPort p (Port.writeRole r))
        else s.modPort p (Port.writeRole r)) := by
    split
    · exact flowControlCheck_only hport
    · exact hport
  unfold writeRole
  dsimp only
  split
  · exact hchecked
  · exact modOutput_only hchecked

/-- Every item of the head ports and the pool but the reserve leaves reserves and held frames alone. -/
theorem writePortItem_only {e : ConfigEntry} {s : State} (he : e.item ≠ 7) :
    Only besidePool s (writePortItem e s).2 := by
  unfold writePortItem
  dsimp only
  split
  · exact atIndex_keeps Only.rfl fun p => withCode_keeps Only.rfl fun r => writeRole_only
  · exact atIndex_keeps Only.rfl fun p => withCode_keeps Only.rfl fun m => modPort_kept Only.rfl fun _ => rfl
  · exact atIndex_keeps Only.rfl fun p => withCode_keeps Only.rfl fun h => modPort_kept Only.rfl fun _ => rfl
  · exact atIndex_keeps Only.rfl fun p => withCode_keeps Only.rfl fun d => modPort_kept Only.rfl fun _ => rfl
  · exact atIndex_keeps Only.rfl fun p => withCode_keeps Only.rfl fun m => modPort_kept Only.rfl fun _ => rfl
  · exact atIndex_keeps Only.rfl fun p => modPort_kept Only.rfl fun _ => rfl
  · contradiction
  · exact atIndex_keeps Only.rfl fun p => flowControlCheck_only (modPort_kept Only.rfl fun _ => rfl)
  · exact atIndex_keeps Only.rfl fun p => flowControlCheck_only (modPort_kept Only.rfl fun _ => rfl)
  · exact atIndex_keeps Only.rfl fun p => modOutput_only Only.rfl
  · exact atZero_keeps Only.rfl (withinRange_keeps Only.rfl fun n => mirror_only)
  · exact atZero_keeps Only.rfl (pool_settings_only rfl)
  · exact Only.rfl

/-! ## The other items -/

/-- The parts that a write of an item of the uplink, the position tracker or the trigger generator can change. -/
abbrev lineItemParts : List Part := [.settings, .acc] ++ triggerParts

/-- What a write of the station address can change. -/
theorem writeStation_only {value : List Byte} {l : List Part} {s : State}
    (hl : Within [.settings] l := by decide) : Only l s (writeStation value s).2 :=
  withAddress_keeps (P := Only l s) Only.rfl fun a => by
    split
    · exact Only.rfl
    · exact upl_settings_only rfl hl

/-- What a write of the recorder address can change. -/
theorem writeRecorder_only {value : List Byte} {l : List Part} {s : State}
    (hl : Within [.settings] l := by decide) : Only l s (writeRecorder value s).2 :=
  withAddress_keeps (P := Only l s) Only.rfl fun a => by
    split
    · exact Only.rfl
    · exact upl_settings_only rfl hl

/-- What a write of the reverse limit can change. -/
theorem writeReverseLimit_only {v : Int} {l : List Part} {s : State}
    (hl : Within [.settings, .acc] l := by decide) : Only l s (writeReverseLimit v s) :=
  Only.widen (fun b => by
    cases b with
    | settings | acc => exact .inl (by decide)
    | _ => exact .inr rfl) hl

/-- What a write of the trigger mode can change. -/
theorem writeTriggerMode_only {m : TriggerMode} {l : List Part} {s : State}
    (hl : Within [.trg] l := by decide) : Only l s (writeTriggerMode m s) := by
  unfold writeTriggerMode
  dsimp only
  split
  · exact armTrigger_only (trg_only hl) hl
  · exact trg_only hl

/-- What a write of the pitch can change. -/
theorem writePitch_only {v : Int} {s : State} : Only triggerParts s (writePitch v s) := by
  unfold writePitch
  dsimp only
  split
  · exact pitchDueTest_only trg_only
  · exact trg_only

/-- What a write of an item of the uplink, the position tracker or the trigger generator can change. -/
theorem writeLineItem_only {e : ConfigEntry} {s : State} : Only lineItemParts s (writeLineItem e s).2 := by
  unfold writeLineItem
  dsimp only
  split
  · exact atZero_keeps Only.rfl writeStation_only
  · exact atZero_keeps Only.rfl writeRecorder_only
  · exact atZero_keeps Only.rfl (withAddress_keeps Only.rfl fun a => upl_settings_only rfl)
  · exact atZero_keeps Only.rfl (withinRange_keeps Only.rfl fun n => upl_settings_only rfl)
  · exact atZero_keeps Only.rfl (withCode_keeps Only.rfl fun m => pos_settings_only rfl rfl rfl rfl)
  · exact atZero_keeps Only.rfl (pos_settings_only rfl rfl rfl rfl)
  · exact atZero_keeps Only.rfl writeReverseLimit_only
  · exact atZero_keeps Only.rfl (withCode_keeps Only.rfl fun m => writeTriggerMode_only)
  · exact atZero_keeps Only.rfl (writePitch_only.widen (by decide))
  · exact atZero_keeps Only.rfl (fireDeferred_only trg_only)
  · exact atZero_keeps Only.rfl trg_only
  · exact Only.rfl

/-- What a write of an item of the section, temperature, event and piece units can change. -/
theorem writeInspectionItem_only {e : ConfigEntry} {s : State} :
    Only [.settings, .lines] s (writeInspectionItem e s).2 := by
  unfold writeInspectionItem
  dsimp only
  split
  · exact atZero_keeps Only.rfl (sau_settings_only rfl rfl)
  · exact atZero_keeps Only.rfl (sau_settings_only rfl rfl)
  · exact atZero_keeps Only.rfl (sau_settings_only rfl rfl)
  · exact atZero_keeps Only.rfl (tmu_settings_only rfl rfl)
  · exact atIndex_keeps Only.rfl fun l => lines_only
  · exact atZero_keeps Only.rfl (emu_settings_only rfl rfl rfl rfl)
  · exact atZero_keeps Only.rfl (withCode_keeps Only.rfl fun b => emu_settings_only rfl rfl rfl rfl)
  · exact atZero_keeps Only.rfl (withinRange_keeps Only.rfl fun n => emu_settings_only rfl rfl rfl rfl)
  · exact atZero_keeps Only.rfl (withinRange_keeps Only.rfl fun n => emu_settings_only rfl rfl rfl rfl)
  · exact atZero_keeps Only.rfl (withinRange_keeps Only.rfl fun n => emu_settings_only rfl rfl rfl rfl)
  · exact atZero_keeps Only.rfl (pcu_settings_only rfl rfl)
  · exact Only.rfl

/-- The parts that a write of an item of the scheduler, the agent or the counter bank can change. -/
abbrev agentItemParts : List Part := [.settings, .turn, .binding, .counters]

/-- Binding mode, fixed and bound address replaced. -/
theorem binding_only {m : BindingMode} {fixed : Address} {bound : Option Address} {l : List Part} {s : State}
    (hl : Within [.binding] l := by decide) :
    Only l s { s with mga := { s.mga with mode := m, fixed := fixed, bound := bound } } :=
  Only.widen (fun b => by
    cases b with
    | binding => exact .inl (by decide)
    | _ => exact .inr rfl) hl

/-- What a write of the scheduling mode can change. -/
theorem writeScheduling_only {m : SchedMode} {l : List Part} {s : State}
    (hl : Within [.settings, .turn] l := by decide) : Only l s (writeScheduling m s) :=
  Only.widen (fun b => by
    cases b with
    | settings | turn => exact .inl (by decide)
    | _ => exact .inr rfl) hl

/-- What a write of a quota can change. -/
theorem quotas_only {x : Vector Nat 4} {l : List Part} {s : State} (hl : Within [.settings] l := by decide) :
    Only l s { s with egs := { s.egs with quotas := x } } :=
  Only.widen (fun b => by
    cases b with
    | settings => exact .inl (by decide)
    | _ => exact .inr rfl) hl

/-- What a write of the binding mode can change. -/
theorem writeBinding_only {source : Address} {m : BindingMode} {l : List Part} {s : State}
    (hl : Within [.binding] l := by decide) : Only l s (writeBinding source m s).2 := by
  unfold writeBinding
  split
  · exact Only.rfl
  · exact binding_only hl

/-- What a write of the fixed address can change. -/
theorem writeFixed_only {value : List Byte} {l : List Part} {s : State}
    (hl : Within [.binding] l := by decide) : Only l s (writeFixed value s).2 :=
  withAddress_keeps (P := Only l s) Only.rfl fun a => by
    split
    · exact Only.rfl
    · exact binding_only hl

/-- What a write of a head filter can change. -/
theorem writeFilter_only {f : Fin 2} {value : List Byte} {l : List Part} {s : State}
    (hl : Within [.counters] l := by decide) : Only l s (writeFilter f value s).2 := by
  unfold writeFilter
  split
  · exact Only.rfl
  · split
    · exact setCounters_only Only.rfl hl
    · exact Only.rfl

/-- What a write of an item of the scheduler, the agent or the counter bank can change. -/
theorem writeAgentItem_only {source : Address} {e : ConfigEntry} {s : State} :
    Only agentItemParts s (writeAgentItem source e s).2 := by
  unfold writeAgentItem
  dsimp only
  split
  · exact atZero_keeps Only.rfl (withCode_keeps Only.rfl fun m => writeScheduling_only)
  · exact atIndex_keeps Only.rfl fun q => quotas_only
  · exact atZero_keeps Only.rfl (withCode_keeps Only.rfl fun m => writeBinding_only)
  · exact atZero_keeps Only.rfl writeFixed_only
  · exact atIndex_keeps Only.rfl fun f => writeFilter_only
  · exact Only.rfl

end Sys2Proof.Machine
end

section
/-! PROOFS. The pool law is kept by every step (R10, R12). -/

namespace Sys2Proof.Machine

/-! ## Frames that arrive -/

/-- The decimation counter's step leaves the reserves alone. -/
theorem advanceDecimation_only {p : Fin 8} {l : List Part} {s : State}
    (hl : Within [.ports] l := by decide) : Only l s (advanceDecimation p s) := by
  unfold advanceDecimation
  split
  · exact Only.rfl
  · refine modPort_kept Only.rfl (fun x => ?_) hl
    split <;> rfl

/-- A SCAN frame judged by the state of its head keeps the pool law. -/
theorem PoolLaw.admitScan {s : State} (h : PoolLaw s) (p : Fin 8) (stored : List Byte) (replaced : Bool) :
    PoolLaw (admitScan p stored replaced s) := by
  unfold Machine.admitScan
  dsimp only
  split
  · exact h.counted _ _
  · split
    · exact h.takeBlocks _ fun u hu => hu.beside advanceDecimation_only
    · exact (h.counted _ _).beside advanceDecimation_only

/-- A SCAN frame judged by the admission mode keeps the pool law. -/
theorem PoolLaw.judgeScan {s : State} (h : PoolLaw s) (p : Fin 8) (bs : List Byte) :
    PoolLaw (judgeScan p bs s) := by
  unfold Machine.judgeScan
  dsimp only
  split
  · exact h.admitScan _ _ _
  · split
    · exact h.counted _ _
    · exact h.admitScan _ _ _
  · exact h.admitScan _ _ _

/-- A non-scan frame keeps the pool law. -/
theorem PoolLaw.judgeNonScan {s : State} (h : PoolLaw s) (p : Fin 8) (bs : List Byte) :
    PoolLaw (judgeNonScan p bs s) := by
  unfold Machine.judgeNonScan
  split
  · exact h.takeBlocks _ fun _ hu => hu
  · exact h.counted _ _

/-- A frame taken whole on a head port keeps the pool law. -/
theorem PoolLaw.receiveOnPort {s : State} (h : PoolLaw s) (f : Frame) (p : Fin 8) :
    PoolLaw (receiveOnPort f p s) := by
  unfold Machine.receiveOnPort
  split
  · exact h
  · have learned := (h.counted p.castSucc .received).beside
      (modPort_kept (p := p) (f := fun x => { x with learned := some (sourceAddr f.bytes) }) Only.rfl fun _ => rfl)
    unfold judgeFrame
    dsimp only
    split
    · exact learned
    · split
      · exact learned.judgeScan _ _
      · exact learned.judgeNonScan _ _
    · split
      · exact learned.takeBlocks _ fun _ hu => hu
      · exact learned.judgeNonScan _ _

/-! ## Frames that are let go or sent -/

/-- The taking of a fragment keeps the pool law. -/
theorem PoolLaw.takeFragment {s : State} (h : PoolLaw s) : PoolLaw (takeFragment s) := by
  unfold Machine.takeFragment
  split
  · exact h
  · exact (h.beside (judgeFragment_only Only.rfl)).releaseFirst _ fun _ => ⟨rfl, rfl⟩

/-- The taking of a TEMP frame keeps the pool law. -/
theorem PoolLaw.takeTemp {s : State} (h : PoolLaw s) : PoolLaw (takeTemp s) := by
  unfold Machine.takeTemp
  split
  · exact h
  · exact PoolLaw.releaseFirst
      (h.beside (Only.fold (fun _ _ hu => takeReading_only hu) Only.rfl)) _ fun _ => ⟨rfl, rfl⟩

/-- An entry that leaves queue D as its sending begins keeps its frame's port and bytes. -/
theorem keepsFrame_startSending : KeepsFrame HeldFrame.startSending := fun x => by
  unfold HeldFrame.startSending
  split <;> exact ⟨rfl, rfl⟩

/-- The beginning of a sending keeps the pool law. -/
theorem PoolLaw.beginSending {s : State} (h : PoolLaw s) (q : QueueId) : PoolLaw (beginSending q s) := by
  cases q with
  | d =>
    unfold Machine.beginSending
    dsimp only
    split
    · exact h
    · exact (h.setHeld_le (useCount_changeFirst_le keepsFrame_startSending _)).beside (setSending_only Only.rfl)
  | a => exact h.beside (sendReport_only Only.rfl)
  | b => exact h.beside (sendReport_only Only.rfl)
  | c => exact h.beside (sendReport_only Only.rfl)

/-- What the scheduler's choice can change. -/
theorem selectQueue_only {s : State} {c : QueueId × State} (hc : selectQueue s = some c) {l : List Part}
    (hl : Within [.turn] l := by decide) : Only l s c.2 := by
  unfold selectQueue at hc
  split at hc
  · obtain ⟨q, -, rfl⟩ := Option.map_eq_some_iff.1 hc
    exact Only.rfl
  · obtain ⟨q, -, rfl⟩ := Option.map_eq_some_iff.1 hc
    exact Only.widen (fun b => by
      cases b with
      | turn => exact .inl (by decide)
      | _ => exact .inr rfl) hl

/-- The selection of a frame keeps the pool law. -/
theorem PoolLaw.selectFrame {s : State} (h : PoolLaw s) : PoolLaw (selectFrame s) := by
  unfold Machine.selectFrame
  split
  · exact h
  · split
    · exact h
    · rename_i hc
      exact (h.beside (selectQueue_only hc)).beginSending _

/-- The frames of queues A, B and C replaced. -/
theorem queues_only {a b c : List OutFrame} {l : List Part} {s : State}
    (hl : Within [.queueA, .queueB, .queueC] l := by decide) :
    Only l s { s with egs := { s.egs with a := a, b := b, c := c } } :=
  Only.widen (fun b => by
    cases b with
    | queueA | queueB | queueC => exact .inl (by decide)
    | _ => exact .inr rfl) hl

/-- The end of a sending keeps the pool law. -/
theorem PoolLaw.endSending {s : State} (h : PoolLaw s) : PoolLaw (endSending s) := by
  unfold Machine.endSending
  split
  · exact h
  · have idle : PoolLaw (setSending none s) := h.beside (setSending_only Only.rfl)
    dsimp only
    split
    · exact idle.beside (noteSent_only queues_only)
    · exact idle.beside (queuePieceReports_only queues_only)
    · exact idle.beside queues_only
    · exact idle.releaseFirst _ fun _ => ⟨rfl, rfl⟩

/-! ## Resets -/

/-- No frame is held and the reserves are within 1536: the pool law holds. -/
theorem PoolLaw.of_empty {s : State} (hh : s.pool.held = [])
    (hr : ((List.finRange 8).map fun p => (s.ports[p]).reserve).sum ≤ 1536) : PoolLaw s :=
  ⟨hr, by
    simp only [hh, useCount_nil, Nat.zero_sub]
    exact Nat.le_trans (Nat.le_of_eq (by decide)) (Nat.zero_le _)⟩

/-- The eight reserves of power-on reset come to 512 blocks. -/
theorem powerOn_reserves (straps : BitVec 3) (pins : Pins) (now : Nat) :
    ((List.finRange 8).map fun p => ((State.powerOn straps pins now).ports[p]).reserve).sum = 512 := by
  have hports : ∀ p : Fin 8, ((#v[Port.default 0, .default 1, .default 2, .default 3, .default 4, .default 5,
      .default 6, .default 7] : Vector Port 8)[p]).reserve = 64 := by decide
  have hreserves : ((List.finRange 8).map fun p => ((State.powerOn straps pins now).ports[p]).reserve) =
      (List.finRange 8).map fun _ => 64 := List.map_congr_left fun p _ => hports p
  rw [hreserves]
  decide

/-- Power-on reset gives the pool law. -/
theorem poolLaw_powerOnReset (straps : BitVec 3) (s : State) : PoolLaw (powerOnReset straps s) :=
  .of_empty rfl (Nat.le_trans (Nat.le_of_eq (powerOn_reserves straps s.pins s.now)) (by decide))

/-- Pin reset gives the pool law. -/
theorem poolLaw_pinReset (straps : BitVec 3) (s : State) : PoolLaw (pinReset straps s) :=
  .of_empty rfl (Nat.le_trans (Nat.le_of_eq (powerOn_reserves straps s.pins s.now)) (by decide))

/-- A soft reset keeps the pool law: it keeps the reserves and empties the pool. -/
theorem PoolLaw.takeSoftReset {s : State} (h : PoolLaw s) : PoolLaw (takeSoftReset s) := by
  unfold Machine.takeSoftReset
  split
  · refine h.of_le (fun p => ?_) fun p => Nat.zero_le _
    change ((updAll s.ports Port.softReset)[p]).reserve = _
    rw [updAll_get]
    rfl
  · exact h

/-- What the end of a reset can change. -/
theorem endReset_only {l : List Part} {s : State}
    (hl : Within [.inReset, .phase, .lines, .log, .queueB, .alarms, .queueA, .counters] l := by decide) :
    Only l s (endReset s) := by
  refine Only.widen (a := [.inReset, .phase, .lines, .log, .queueB, .alarms, .queueA, .counters]) ?_ hl
  unfold endReset
  split
  · refine backlogRaiseTest_only (queuePieceReports_only fun b => ?_)
    cases b with
    | inReset | phase | lines => exact .inl (by decide)
    | _ => exact .inr rfl
  · exact Only.rfl

/-! ## Requests -/

/-- A configuration item written keeps the pool law. -/
theorem PoolLaw.writeItem {s : State} (h : PoolLaw s) (source : Address) (e : ConfigEntry) :
    PoolLaw (writeItem source e s).2 := by
  unfold Machine.writeItem
  split
  · by_cases he : e.item = 7
    · unfold writePortItem
      simp only [he]
      exact atIndex_keeps h fun p => h.writeReserve p _
    · exact h.beside (writePortItem_only he)
  · split
    · exact h.beside (writeLineItem_only.widen (by decide))
    · split
      · exact h.beside (writeInspectionItem_only.widen (by decide))
      · exact h.beside (writeAgentItem_only.widen (by decide))

/-- A row of the command table keeps the pool law when its execution does. -/
theorem PoolLaw.takeRequest {s : State} (h : PoolLaw s) {run : Execution}
    (hrun : ∀ r s, PoolLaw s → PoolLaw (run r s).2) (selects : Request → Bool) (sizeOk : Nat → Bool) :
    PoolLaw (takeRequest selects sizeOk run s) :=
  takeRequest_keeps (P := PoolLaw) (fun _ _ k hs => hs.beside (k.widen (by decide))) hrun selects sizeOk h

/-- A row whose execution leaves reserves and held frames alone keeps the pool law. -/
theorem PoolLaw.takeRequest_beside {s : State} (h : PoolLaw s) {run : Execution}
    (hrun : ∀ r s, Only besidePool s (run r s).2) (selects : Request → Bool) (sizeOk : Nat → Bool) :
    PoolLaw (Machine.takeRequest selects sizeOk run s) :=
  h.takeRequest (fun r u hu => hu.beside (hrun r u)) selects sizeOk

/-- A SET_CONFIG row keeps the pool law. -/
theorem PoolLaw.takeWrite {s : State} (h : PoolLaw s) (items : List Nat) : PoolLaw (takeWrite items s) :=
  h.takeRequest (fun r _ hu => setConfig_keeps (P := PoolLaw) (fun a e _ hv => hv.writeItem a e) r hu) _ _

/-! ## The step -/

/-- A command that names one of n answers its effect on that one, if it answers. -/
theorem withIndex_next {n i : Nat} {s t : State} {f : Fin n → State → State} (h : withIndex i s f = .next t) :
    ∃ j : Fin n, t = f j s := by
  unfold withIndex at h
  split at h
  · exact ⟨_, (Host.Outcome.next.inj h).symm⟩
  · cases h

/-- A command on one of n keeps the pool law when its effect leaves reserves and held frames alone. -/
theorem PoolLaw.withIndex_beside {n i : Nat} {s t : State} {f : Fin n → State → State} (h : PoolLaw s)
    (he : withIndex i s f = .next t) (hf : ∀ j, Only besidePool s (f j s)) : PoolLaw t := by
  obtain ⟨j, rfl⟩ := withIndex_next he
  exact h.beside (hf j)

/-- Every command keeps the pool law. -/
theorem PoolLaw.exec {s t : State} (h : PoolLaw s) (c : Instr) (he : exec c s = .next t) : PoolLaw t := by
  cases c with
  | headFrameReceive port frame =>
    obtain ⟨p, rfl⟩ := withIndex_next he
    exact h.receiveOnPort frame p
  | noticeSendStart port => exact h.withIndex_beside he fun p => startNotice_only Only.rfl
  | noticeSendEnd port => exact h.withIndex_beside he fun p => modPort_kept Only.rfl fun _ => rfl
  | pulseStart port => exact h.withIndex_beside he fun p => startPulse_only Only.rfl
  | pulseRelease port => exact h.withIndex_beside he fun p => endPulse_only Only.rfl
  | slotDeadlineExpiry slot => exact h.withIndex_beside he fun i => expireDeadline_only Only.rfl
  | tempExpiry strand => exact h.withIndex_beside he fun n => expireTemp_only Only.rfl
  | gateRelease strand => exact h.withIndex_beside he fun n => releaseGate_only Only.rfl
  | powerOnReset straps => cases he; exact poolLaw_powerOnReset straps s
  | pinReset straps => cases he; exact poolLaw_pinReset straps s
  | softReset => cases he; exact h.takeSoftReset
  | resetEnd => cases he; exact h.beside endReset_only
  | uplinkFrameReceive frame => cases he; exact h.beside (receiveOnUplink_only Only.rfl)
  | uplinkSelect => cases he; exact h.selectFrame
  | uplinkSendEnd => cases he; exact h.endSending
  | encoderChange a b => cases he; exact h.beside (changeEncoder_only Only.rfl)
  | tminExpiry => cases he; exact h.beside (fireDeferred_only Only.rfl)
  | periodTimerExpiry => cases he; exact h.beside (expirePeriod_only Only.rfl)
  | fragmentTake => cases he; exact h.takeFragment
  | evaluationComplete => cases he; exact h.beside (completeEvaluation_only Only.rfl)
  | tmuTakeTemp => cases he; exact h.takeTemp
  | stillnessExpiry => cases he; exact h.beside (expireStillness_only Only.rfl)
  | eventLineChange line level => cases he; exact h.beside (changeLine_only Only.rfl)
  | filterTimeExpiry line => cases he; exact h.beside (settleLine_only Only.rfl)
  | identify => cases he; exact h.takeRequest_beside (fun _ _ => identify_only) _ _
  | getConfig => cases he; exact h.takeRequest_beside (fun _ _ => getConfig_only) _ _
  | setGeometry => cases he; exact h.takeRequest_beside (fun _ _ => setGeometry_only) _ _
  | setHeadState => cases he; exact h.takeRequest_beside (fun _ _ => setHeadState_only) _ _
  | tableOpen => cases he; exact h.takeRequest_beside (fun _ _ => tableOpen_only) _ _
  | tableData => cases he; exact h.takeRequest_beside (fun _ _ => tableData_only) _ _
  | tableRead => cases he; exact h.takeRequest_beside (fun _ _ => tableRead_only) _ _
  | selectDie => cases he; exact h.takeRequest_beside (fun _ _ => selectDie_only) _ _
  | deactivate => cases he; exact h.takeRequest_beside (fun _ _ => deactivate_only) _ _
  | flush => cases he; exact h.takeRequest_beside (fun _ _ => flushCommand_only) _ _
  | readCells => cases he; exact h.takeRequest_beside (fun _ _ => readCells_only) _ _
  | readPieces => cases he; exact h.takeRequest_beside (fun _ _ => readPieces_only) _ _
  | read => cases he; exact h.takeRequest_beside (fun _ _ => readCounters_only) _ _
  | readClear => cases he; exact h.takeRequest_beside (fun _ _ => readClear_only) _ _
  | clearScope => cases he; exact h.takeRequest_beside (fun _ _ => clearScope_only) _ _
  | clearAll => cases he; exact h.takeRequest_beside (fun _ _ => clearAll_only) _ _
  | freeze => cases he; exact h.takeRequest_beside (fun _ _ => setFreeze_only) _ _
  | unfreeze => cases he; exact h.takeRequest_beside (fun _ _ => setFreeze_only) _ _
  | clearAlarms => cases he; exact h.takeRequest_beside (fun _ _ => clearAlarms_only) _ _
  | reset => cases he; exact h.takeRequest_beside (fun _ _ => resetCommand_only) _ _
  | badCommand => cases he; exact h.takeRequest_beside (fun _ _ => Only.rfl) _ _
  | writePortRole => cases he; exact h.takeWrite _
  | writeForwardMode => cases he; exact h.takeWrite _
  | writeDecimationFactor => cases he; exact h.takeWrite _
  | writeReserve => cases he; exact h.takeWrite _
  | writeWaterMark => cases he; exact h.takeWrite _
  | writeMirrorSource => cases he; exact h.takeWrite _
  | writeStationAddress => cases he; exact h.takeWrite _
  | writeRecorderAddress => cases he; exact h.takeWrite _
  | writeFrameTypeValue => cases he; exact h.takeWrite _
  | writeReverseLimit => cases he; exact h.takeWrite _
  | writeTriggerMode => cases he; exact h.takeWrite _
  | writePitch => cases he; exact h.takeWrite _
  | writeTmin => cases he; exact h.takeWrite _
  | writeTp => cases he; exact h.takeWrite _
  | writeSchedulingMode => cases he; exact h.takeWrite _
  | writeBindingMode => cases he; exact h.takeWrite _
  | writeFixedAddress => cases he; exact h.takeWrite _
  | writeConfigItem =>
    cases he
    exact h.takeRequest (fun r _ hu => setConfig_keeps (P := PoolLaw) (fun a e _ hv => hv.writeItem a e) r hu) _ _

/-- What an idle step can change. -/
theorem tick_only {l : List Part} {s : State} (hl : Within [.now, .pending] l := by decide) :
    Only l s (tick s) := by
  refine Only.widen (a := [.now, .pending]) ?_ hl
  unfold tick
  split <;> exact fun b => by
    cases b with
    | now | pending => exact .inl (by decide)
    | _ => exact .inr rfl

/-- Settles O59: an idle step leaves the pool alone, and a command keeps the law by `PoolLaw.exec`. -/
theorem stepsKeepThePoolLaw : Obligations.StepsKeepThePoolLaw := by
  intro s t h hstep
  unfold step at hstep
  split at hstep
  · cases hstep
    exact h.beside tick_only
  · rename_i c rest _
    have popped : PoolLaw { s with pending := rest } :=
      h.beside fun b => by
        cases b with
        | pending => exact .inl (by decide)
        | _ => exact .inr rfl
    exact popped.exec c hstep

end Sys2Proof.Machine
end

section
/-! SUPPORT. Numbers in bytes (1.7, R173): what a field of bytes carries, and how a number is laid out. -/

namespace Sys2Proof.Machine

/-! ## Numbers laid out -/

/-- A number in k bytes, its bytes counted from the most significant one. -/
theorem beNat_eq_map (k v : Nat) :
    beNat k v = (List.range k).map fun i => BitVec.ofNat 8 (v / 256 ^ (k - 1 - i)) := by
  induction k with
  | zero => rfl
  | succ k ih =>
    rw [beNat, ih, List.range_succ_eq_map]
    simp only [List.map_cons, List.map_map, Nat.add_sub_cancel, Nat.sub_zero, List.cons.injEq, true_and]
    exact List.map_congr_left fun i _ => by simp [Nat.sub_sub, Nat.add_comm]

/-- A number in k bytes is k bytes long. -/
@[simp] theorem beNat_length (k v : Nat) : (beNat k v).length = k := by simp [beNat_eq_map]

/-- A number in one byte. -/
@[simp] theorem beNat_one (v : Nat) : beNat 1 v = [BitVec.ofNat 8 v] := by simp [beNat]

/-- Zero in any number of bytes. -/
theorem beNat_zero (k : Nat) : beNat k 0 = List.replicate k 0 := by
  induction k with
  | zero => rfl
  | succ k ih => simp [beNat, ih, List.replicate_succ]

/-! ## Numbers read -/

/-- A byte more, at the least significant end. -/
theorem readNat_concat (bs : List Byte) (b : Byte) : readNat (bs ++ [b]) = readNat bs * 256 + b.toNat := by
  simp [readNat, List.foldl_append]

/-- A field carries less than its width allows. -/
theorem readNat_lt (bs : List Byte) : readNat bs < 256 ^ bs.length := by
  generalize hn : bs.length = n
  induction n generalizing bs with
  | zero =>
    rw [List.length_eq_zero_iff.1 hn]
    exact Nat.one_pos
  | succ n ih =>
    have hne : bs ≠ [] := fun hnil => by simp [hnil] at hn
    have hinit := ih bs.dropLast (by rw [List.length_dropLast, hn, Nat.add_sub_cancel])
    have hlast : (bs.getLast hne).toNat < 256 := (bs.getLast hne).isLt
    rw [← List.dropLast_concat_getLast hne, readNat_concat, Nat.pow_succ]
    omega

/-- The number at an offset is less than its width allows. -/
theorem natAt_lt (bs : List Byte) (offset k : Nat) : natAt bs offset k < 256 ^ k :=
  Nat.lt_of_lt_of_le (readNat_lt _)
    (Nat.pow_le_pow_right (by decide) (List.length_take_le ..))

/-- A field of no bytes carries 0. -/
@[simp] theorem natAt_zero (bs : List Byte) (offset : Nat) : natAt bs offset 0 = 0 := by
  simp [natAt, field, readNat]

/-- A byte more of a field that the bytes hold. -/
theorem natAt_succ (bs : List Byte) (offset k : Nat) (h : offset + k < bs.length) :
    natAt bs offset (k + 1) = natAt bs offset k * 256 + (bs[offset + k]).toNat := by
  have hk : k < (bs.drop offset).length := by simp; omega
  rw [natAt, field, List.take_succ_eq_append_getElem hk, readNat_concat, List.getElem_drop]
  rfl

/-- A signed field that the bytes hold, in two's complement. -/
theorem intAt_eq (bs : List Byte) (offset k : Nat) (h : offset + k ≤ bs.length) :
    intAt bs offset k = if 2 * natAt bs offset k < 256 ^ k then (natAt bs offset k : Int)
      else natAt bs offset k - (256 ^ k : Nat) := by
  have hlen : (field bs offset k).length = k := by simp [field]; omega
  simp only [intAt, readInt, hlen]
  rfl

/-- An address field is that of an address just when it carries its number. -/
theorem ofNat_natAt_six (bs : List Byte) (offset : Nat) (a : Address) :
    BitVec.ofNat 48 (natAt bs offset 6) = a ↔ natAt bs offset 6 = a.toNat := by
  have hlt : natAt bs offset 6 < 2 ^ 48 := natAt_lt bs offset 6
  constructor
  · rintro rfl
    rw [BitVec.toNat_ofNat, Nat.mod_eq_of_lt hlt]
  · intro h
    rw [h, BitVec.ofNat_toNat, BitVec.setWidth_eq]

end Sys2Proof.Machine
end

section
/-! PROOFS. The reset state and the soft reset (R15, R179, and the reset rule of each block). -/

namespace Sys2Proof.Machine

/-- A die slot after pin reset or soft reset (R93). -/
theorem resetKept_eq (d : DieSlot) :
    d.resetKept =
      if d.state = .inService ∨ d.state = .staged then { d with state := .ready }
      else if d.state = .loading then
        { d with state := .faulty, faultNumber := some 0, faultStrand := none, faultEntry := none }
      else d := by
  unfold DieSlot.resetKept
  cases hd : d.state <;> simp

/-- SOFT_RESET once due. -/
theorem exec_softReset_due {s : State} (hdue : s.mga.reset = .due) (hidle : s.inReset = false) :
    exec .softReset s = .next (softReset s) :=
  congrArg Host.Outcome.next (if_pos ⟨hdue, hidle⟩)

/-- Settles O6: the state that SOFT_RESET answers, field by field. -/
theorem softResetTakesEffectOnceDue : Obligations.SoftResetTakesEffectOnceDue := by
  intro s hdue hidle
  refine ⟨softReset s, exec_softReset_due hdue hidle, fun p => ?_, fun h => ?_, fun p => ?_, fun l => ?_,
    fun n => ?_, fun k => ?_, rfl⟩
  · exact updAll_get s.ports p Port.softReset
  · exact updAll_get s.heads h Head.softReset
  · exact updAll_get s.trg.outputs p _
  · exact updAll_get s.emu.lines l _
  · exact updAll_get s.pcu.strands n StrandPieces.softReset
  · exact (updAll_get s.dlb.slots k DieSlot.resetKept).trans (resetKept_eq _)

/-! ## The reset state -/

/-- Every die slot is EMPTY in the reset state. -/
theorem reset_dieSlot (k : Fin 8) : State.reset.dlb.slots[k] = DieSlot.default :=
  Vector.getElem_replicate ..

/-- The reset state meets the law of the library: nothing serves, nothing is staged, nothing is loading. -/
theorem libraryLaw_reset : LibraryLaw State.reset := by
  have hstate : ∀ k : Fin 8, (State.reset.dlb.slots[k]).state = .empty := fun k => by rw [reset_dieSlot]; rfl
  have hservice : State.reset.dlb.service = .unconfigured := rfl
  have hgeometry : State.reset.lmp.geometry = none := rfl
  have htarget : State.reset.mga.window.target = none := rfl
  simp only [LibraryLaw, hstate, hservice, hgeometry, htarget]
  simp

/-- The reset state meets the law of the pool. -/
theorem poolLaw_reset : PoolLaw State.reset :=
  .of_empty rfl (Nat.le_trans (Nat.le_of_eq (powerOn_reserves _ _ _)) (by decide))

/-- Settles O56: the rings, queues and lists of the reset state are empty, and the three other laws hold of it. -/
theorem resetStateMeetsTheLaws : Obligations.ResetStateMeetsTheLaws := by
  refine ⟨fun t => ?_, ?_, ?_, libraryLaw_reset, poolLaw_reset, ?_⟩
  · rw [show State.reset.lmp.rings[t] = [] from Vector.getElem_replicate ..]
    exact Ring.wf_nil
  · exact ⟨Nat.zero_le _, Nat.zero_le _, Nat.zero_le _, Nat.zero_le _, rfl⟩
  · exact ⟨Nat.zero_le _, Nat.zero_le _, Nat.zero_le _, fun t => Nat.zero_le _⟩
  · simp [PositionLaw, State.reset, State.powerOn]

end Sys2Proof.Machine
end

section
/-! PROOFS. Frames on the head ports and the uplink (R1–R10, R13, R18): what an arriving frame is judged to be, and
what becomes of it. -/

namespace Sys2Proof.Machine

/-! ## Fields that a count leaves -/

/-- The fields after a count. -/
@[simp] theorem count_fields (f : Counters → Counters) (s : State) :
    (count f s).now = s.now ∧ (count f s).inReset = s.inReset ∧ (count f s).pins = s.pins ∧
    (count f s).ports = s.ports ∧ (count f s).mirror = s.mirror ∧ (count f s).pool = s.pool ∧
    (count f s).upl = s.upl ∧ (count f s).pos = s.pos ∧ (count f s).trg = s.trg ∧
    (count f s).heads = s.heads ∧ (count f s).sau = s.sau ∧ (count f s).tmu = s.tmu ∧
    (count f s).dlb = s.dlb ∧ (count f s).gev = s.gev ∧ (count f s).lmp = s.lmp ∧
    (count f s).emu = s.emu ∧ (count f s).pcu = s.pcu ∧ (count f s).egs = s.egs ∧
    (count f s).mga = s.mga ∧ (count f s).pending = s.pending := by
  unfold count
  split <;> exact ⟨rfl, rfl, rfl, rfl, rfl, rfl, rfl, rfl, rfl, rfl, rfl, rfl, rfl, rfl, rfl, rfl, rfl, rfl, rfl, rfl⟩

/-- The fields after a port's count. -/
@[simp] theorem countPort_fields (i : Fin 9) (c : PortCounter) (s : State) :
    (countPort i c s).now = s.now ∧ (countPort i c s).inReset = s.inReset ∧ (countPort i c s).pins = s.pins ∧
    (countPort i c s).ports = s.ports ∧ (countPort i c s).mirror = s.mirror ∧ (countPort i c s).pool = s.pool ∧
    (countPort i c s).upl = s.upl ∧ (countPort i c s).pos = s.pos ∧ (countPort i c s).trg = s.trg ∧
    (countPort i c s).heads = s.heads ∧ (countPort i c s).sau = s.sau ∧ (countPort i c s).tmu = s.tmu ∧
    (countPort i c s).dlb = s.dlb ∧ (countPort i c s).gev = s.gev ∧ (countPort i c s).lmp = s.lmp ∧
    (countPort i c s).emu = s.emu ∧ (countPort i c s).pcu = s.pcu ∧ (countPort i c s).egs = s.egs ∧
    (countPort i c s).mga = s.mga ∧ (countPort i c s).pending = s.pending :=
  count_fields _ s

/-! ## Frames taken and discarded (R1, R15) -/

/-- A command that names a port, slot or strand of the part. -/
theorem withIndex_val {n : Nat} (i : Fin n) (s : State) (f : Fin n → State → State) :
    withIndex i.val s f = .next (f i s) := by
  simp [withIndex]

/-- A frame is discarded just when it is unsound or a reset is in progress. -/
theorem discarded_iff (f : Frame) (s : State) :
    (s.inReset || !soundFrame f) = true ↔
      f.fcs ≠ crc32 f.bytes ∨ f.bytes.length < 60 ∨ 1536 < f.bytes.length ∨ s.inReset = true := by
  simp only [soundFrame, Bool.or_eq_true, Bool.not_eq_true', Bool.and_eq_false_iff, beq_eq_false_iff_ne,
    decide_eq_false_iff_not, Nat.not_le, ne_eq]
  exact or_comm.trans (or_assoc.trans or_assoc)

/-- A frame that arrives is not discarded. -/
theorem Arrives.not_discarded {s : State} {f : Frame} (h : Arrives s f) :
    (s.inReset || !soundFrame f) = false := by
  obtain ⟨hfcs, hshort, hlong, hidle⟩ := h
  simp [soundFrame, hfcs, hshort, hlong, hidle]

/-- A frame that arrives on a head port is judged there. -/
theorem exec_headFrameReceive {s : State} {f : Frame} (h : Arrives s f) (p : Fin 8) :
    exec (.headFrameReceive p.val f) s = .next (judgeFrame p f.bytes s) := by
  refine (withIndex_val p s (receiveOnPort f)).trans (congrArg _ ?_)
  rw [receiveOnPort, h.not_discarded]
  rfl

/-- A frame that arrives on the uplink is judged there. -/
theorem exec_uplinkFrameReceive {s : State} {f : Frame} (h : Arrives s f) :
    exec (.uplinkFrameReceive f) s = .next (judgeUplink f.bytes s) := by
  refine congrArg Host.Outcome.next ?_
  rw [receiveOnUplink, h.not_discarded]
  rfl

/-! ## The port that has counted the frame (R1) -/

/-- The port's record once it has learned the source of a frame. -/
theorem learnt_port (p : Fin 8) (f : Frame) (s : State) :
    (learnt p f s).ports[p] =
      { s.ports[p] with learned := some (BitVec.ofNat 48 (natAt f.bytes 6 6)) } := by
  simp [learnt]

/-- What the counting of a frame and the learning of its source can change. -/
theorem learnt_only {p : Fin 8} {f : Frame} {s : State} : Only [.ports, .counters] s (learnt p f s) :=
  modPort_kept (countPort_only Only.rfl) fun _ => rfl

/-- The heads while a frame is judged. -/
@[simp] theorem learnt_heads (p : Fin 8) (f : Frame) (s : State) : (learnt p f s).heads = s.heads := by
  simp [learnt]

/-- The mirror source while a frame is judged. -/
@[simp] theorem learnt_mirror (p : Fin 8) (f : Frame) (s : State) : (learnt p f s).mirror = s.mirror := by
  simp [learnt]

/-- The frame type value while a frame is judged. -/
@[simp] theorem learnt_upl (p : Fin 8) (f : Frame) (s : State) : (learnt p f s).upl = s.upl := by
  simp [learnt]

/-- What the admission mode stores of a SCAN frame, judged before or after the source is learned. -/
theorem storedScan_learnt (p : Fin 8) (f : Frame) (s : State) (bytes : List Byte) :
    storedScan (learnt p f s) p bytes = storedScan s p bytes := by
  simp only [storedScan, learnt_port]

/-- What a frame that R1 keeps is judged to be, by the role of its port and its own form. -/
theorem judgeFrame_eq (p : Fin 8) (f : Frame) (s : State) :
    judgeFrame p f.bytes s =
      if (s.ports[p]).role = .off then learnt p f s
      else if nonScanOn s p f.bytes = true then judgeNonScan p f.bytes (learnt p f s)
      else if (s.ports[p]).role = .head then judgeScan p f.bytes (learnt p f s)
      else judgeTemp p f.bytes (learnt p f s) := by
  have hjudged : judgeFrame p f.bytes s =
      match ((learnt p f s).ports[p]).role with
      | .off => learnt p f s
      | .head =>
        if soundScan (learnt p f s).upl.frameType f.bytes then judgeScan p f.bytes (learnt p f s)
        else judgeNonScan p f.bytes (learnt p f s)
      | .pyro =>
        if soundTemp (learnt p f s).upl.frameType f.bytes then judgeTemp p f.bytes (learnt p f s)
        else judgeNonScan p f.bytes (learnt p f s) := rfl
  rw [hjudged, learnt_port, learnt_upl]
  unfold nonScanOn
  cases (s.ports[p]).role with
  | off => rfl
  | head => cases h : soundScan s.upl.frameType f.bytes <;> simp
  | pyro => cases h : soundTemp s.upl.frameType f.bytes <;> simp

/-- A sound SCAN frame on a HEAD port is no non-scan frame. -/
theorem nonScanOn_scan {s : State} {p : Fin 8} {bytes : List Byte} (hrole : (s.ports[p]).role = .head)
    (hsound : soundScan s.upl.frameType bytes = true) : nonScanOn s p bytes = false := by
  simp only [nonScanOn, hrole, hsound, Bool.not_true]

/-- A sound TEMP frame on a PYRO port is no non-scan frame. -/
theorem nonScanOn_temp {s : State} {p : Fin 8} {bytes : List Byte} (hrole : (s.ports[p]).role = .pyro)
    (hsound : soundTemp s.upl.frameType bytes = true) : nonScanOn s p bytes = false := by
  simp only [nonScanOn, hrole, hsound, Bool.not_true]

/-- A port with a non-scan frame is not OFF. -/
theorem role_of_nonScanOn {s : State} {p : Fin 8} {bytes : List Byte} (h : nonScanOn s p bytes = true) :
    (s.ports[p]).role ≠ .off := by
  intro hrole
  simp only [nonScanOn, hrole] at h
  cases h

/-- A SCAN frame at its port's admission (R3): dropped by MATCH, or judged by its head as stored. -/
theorem judgeScan_eq (p : Fin 8) (bs : List Byte) (s : State) :
    judgeScan p bs s =
      (storedScan s p bs).elim (countPort p.castSucc .admitMismatch s) fun x => admitScan p x.1 x.2 s := by
  simp only [judgeScan, storedScan, scanHead]
  cases (s.ports[p]).admission with
  | any => rfl
  | matchId =>
    by_cases h : natAt bs 18 1 = (s.ports[p]).defaultHead.val
    · simp only [h, ne_eq, not_true_eq_false, decide_false, Bool.false_eq_true, if_true, if_false, Option.elim]
    · simp only [h, ne_eq, not_false_eq_true, decide_true, if_true, if_false, Option.elim]
  | stamp => rfl

/-- A SCAN frame of a head in OFF (R4). -/
theorem admitScan_off {p : Fin 8} {stored : List Byte} {replaced : Bool} {s : State}
    (h : (s.heads[admittedHead stored]).state = .off) :
    admitScan p stored replaced s = countPort p.castSucc .headOff s := by
  simp only [admitScan, h]

/-- A SCAN frame as it asks for blocks (R4): for the fragment unit unless its head is in LISTEN, and for queue D
by the port's forwarding. -/
def scanFrame (p : Fin 8) (stored : List Byte) (replaced : Bool) (s : State) : HeldFrame :=
  { port := p, bytes := stored, ptu := decide ((s.heads[admittedHead stored]).state ≠ .listen), tmu := false,
    queueD := scanEntry p (admittedHead stored) replaced s }

/-- A SCAN frame of a head in use (R4). -/
theorem admitScan_on {p : Fin 8} {stored : List Byte} {replaced : Bool} {s : State}
    (h : (s.heads[admittedHead stored]).state ≠ .off) :
    admitScan p stored replaced s =
      if (scanFrame p stored replaced s).isHeld then
        takeBlocks (scanFrame p stored replaced s) (advanceDecimation p) s
      else advanceDecimation p (countPort p.castSucc .admitted s) := by
  unfold admitScan
  dsimp only
  split
  · rename_i hoff
    exact absurd hoff h
  · rfl

/-- A frame that asks for its blocks (R10): entered, or counted NO_BUFFER, and then the pool checks. -/
theorem takeBlocks_eq (f : HeldFrame) (onGrant : State → State) (s : State)
    (hqueue : f.inQueueD = true ↔ f.queueD ≠ .none) :
    takeBlocks f onGrant s = poolChecks f.port
      (if grantFits f.port f.blocks s then onGrant (entered f s) else countPort f.port.castSucc .noBuffer s) := by
  have hentered : entered f s =
      if f.inQueueD then countPort f.port.castSucc .forwarded
        (countPort f.port.castSucc .admitted (setHeld (s.pool.held ++ [f]) s))
      else countPort f.port.castSucc .admitted (setHeld (s.pool.held ++ [f]) s) := by
    unfold entered
    by_cases h : f.queueD = .none
    · rw [if_pos h, if_neg (fun hq => hqueue.1 hq h)]
      rfl
    · rw [if_neg h, if_pos (hqueue.2 h)]
      rfl
  rw [hentered]
  unfold takeBlocks
  split <;> rfl

/-- A non-scan frame at its port (R6, R7). -/
theorem judgeNonScan_eq (p : Fin 8) (f : Frame) (s : State) :
    judgeNonScan p f.bytes (learnt p f s) =
      if s.mirror = some p ∨ (s.ports[p]).nonScan = .uplink then
        takeBlocks { port := p, bytes := f.bytes, ptu := false, tmu := false, queueD := .queued .raw } id
          (learnt p f s)
      else countPort p.castSucc .nonScanDropped (learnt p f s) := by
  simp only [judgeNonScan, isMirror, learnt_mirror, learnt_port, Bool.or_eq_true, decide_eq_true_eq]

/-! ## The form of frames (R2, 1.7) -/

/-- A sound SCAN frame, by its fields. -/
theorem soundScan_iff (frameType : BitVec 16) (bs : List Byte) :
    soundScan frameType bs = true ↔
      (natAt bs 12 2 = frameType.toNat ∧ natAt bs 14 1 = 1 ∧ natAt bs 15 1 = 1 ∧
        natAt bs 16 2 = 11 + 5 * natAt bs 23 2 ∧ 11 + 5 * natAt bs 23 2 + 14 ≤ bs.length) ∧
      natAt bs 18 1 ≤ 15 ∧ 1 ≤ natAt bs 20 1 ∧ natAt bs 20 1 ≤ 4 ∧ natAt bs 19 1 < natAt bs 20 1 ∧
        natAt bs 23 2 ≤ 280 := by
  simp only [soundScan, protocolFrame, Bool.and_eq_true, beq_iff_eq, decide_eq_true_eq]
  simp only [typeField, versionField, kindField, lengthField, scanHead, scanIndex, scanCount, scanPoints]
  constructor
  · rintro ⟨⟨⟨⟨⟨⟨⟨⟨⟨⟨htype, hversion⟩, -⟩, hfits⟩, hkind⟩, hhead⟩, hone⟩, hfour⟩, hindex⟩, hpoints⟩, hlength⟩
    exact ⟨⟨htype, hversion, hkind, hlength, hlength ▸ hfits⟩, hhead, hone, hfour, hindex, hpoints⟩
  · rintro ⟨⟨htype, hversion, hkind, hlength, hfits⟩, hhead, hone, hfour, hindex, hpoints⟩
    exact ⟨⟨⟨⟨⟨⟨⟨⟨⟨⟨htype, hversion⟩, by omega⟩, by omega⟩, hkind⟩, hhead⟩, hone⟩, hfour⟩, hindex⟩, hpoints⟩, hlength⟩

/-- A sound TEMP frame, by its fields. -/
theorem soundTemp_iff (frameType : BitVec 16) (bs : List Byte) :
    soundTemp frameType bs = true ↔
      (natAt bs 12 2 = frameType.toNat ∧ natAt bs 14 1 = 1 ∧ natAt bs 15 1 = 2 ∧
        natAt bs 16 2 = 5 + 4 * natAt bs 18 1 ∧ 5 + 4 * natAt bs 18 1 + 14 ≤ bs.length) ∧
      1 ≤ natAt bs 18 1 ∧ natAt bs 18 1 ≤ 4 ∧ ∀ j < natAt bs 18 1, natAt bs (19 + 4 * j) 1 ≤ 3 := by
  have hstrands : (tempReadings bs).all (fun r => decide (r.strand ≤ 3)) = true ↔
      ∀ j < natAt bs 18 1, natAt bs (19 + 4 * j) 1 ≤ 3 := by
    simp [tempReadings, tempCount]
  simp only [soundTemp, hstrands, protocolFrame, Bool.and_eq_true, beq_iff_eq, decide_eq_true_eq]
  simp only [typeField, versionField, kindField, lengthField, tempCount]
  constructor
  · rintro ⟨⟨⟨⟨⟨⟨⟨⟨htype, hversion⟩, -⟩, hfits⟩, hkind⟩, hone⟩, hfour⟩, hall⟩, hlength⟩
    exact ⟨⟨htype, hversion, hkind, hlength, hlength ▸ hfits⟩, hone, hfour, hall⟩
  · rintro ⟨⟨htype, hversion, hkind, hlength, hfits⟩, hone, hfour, hall⟩
    exact ⟨⟨⟨⟨⟨⟨⟨⟨htype, hversion⟩, by omega⟩, by omega⟩, hkind⟩, hone⟩, hfour⟩, hall⟩, hlength⟩

/-! ## Frames not taken up (R1, R3, R4, R6) -/

/-- A sound SCAN frame on a HEAD port is judged by its head as stored. -/
theorem exec_scanFrame {s : State} {f : Frame} (h : Arrives s f) {p : Fin 8}
    (hrole : (s.ports[p]).role = .head) (hsound : soundScan s.upl.frameType f.bytes = true) :
    exec (.headFrameReceive p.val f) s = .next
      ((storedScan s p f.bytes).elim (countPort p.castSucc .admitMismatch (learnt p f s))
        fun x => admitScan p x.1 x.2 (learnt p f s)) := by
  rw [exec_headFrameReceive h, judgeFrame_eq, if_neg (by rw [hrole]; decide),
    if_neg (by simp [nonScanOn_scan hrole hsound]), if_pos hrole, judgeScan_eq, storedScan_learnt]

/-- A non-scan frame is judged by mirror source and disposition. -/
theorem exec_nonScanFrame {s : State} {f : Frame} (h : Arrives s f) {p : Fin 8}
    (hnon : nonScanOn s p f.bytes = true) :
    exec (.headFrameReceive p.val f) s = .next
      (if s.mirror = some p ∨ (s.ports[p]).nonScan = .uplink then
        takeBlocks { port := p, bytes := f.bytes, ptu := false, tmu := false, queueD := .queued .raw } id
          (learnt p f s)
      else countPort p.castSucc .nonScanDropped (learnt p f s)) := by
  rw [exec_headFrameReceive h, judgeFrame_eq, if_neg (role_of_nonScanOn hnon), if_pos hnon, judgeNonScan_eq]

/-- Settles O9, clause by clause: discarded frames, OFF ports, frames dropped by their cause, and the readings. -/
theorem framesNotTakenUpAreCountedByTheirCause : Obligations.FramesNotTakenUpAreCountedByTheirCause := by
  refine ⟨fun p f s hbad => ?_, fun p f s h hoff => ?_, fun p f s h => ⟨fun hrole hsound => ⟨?_, ?_⟩, ?_⟩,
    fun bs => ?_, fun bs offset => ⟨natAt_zero bs offset, natAt_succ bs offset, intAt_eq bs offset⟩⟩
  · have hdiscard := (discarded_iff f s).2 hbad
    exact ⟨(withIndex_val p s (receiveOnPort f)).trans (congrArg _ (if_pos hdiscard)),
      congrArg Host.Outcome.next (if_pos hdiscard)⟩
  · rw [exec_headFrameReceive h, judgeFrame_eq, if_pos hoff]
  · intro hmatch hdiffers
    have hnone : storedScan s p f.bytes = none := by
      rw [storedScan, hmatch]
      exact if_neg hdiffers
    rw [exec_scanFrame h hrole hsound, hnone]
    rfl
  · intro stored replaced hstored hoff
    rw [exec_scanFrame h hrole hsound, hstored]
    exact congrArg _ (admitScan_off (by rw [learnt_heads]; exact hoff))
  · intro hnon hmirror hdrop
    rw [exec_nonScanFrame h hnon, if_neg (by rw [hdrop]; simp [hmirror])]
  · refine ⟨fun frameType => soundScan_iff frameType bs, fun frameType => soundTemp_iff frameType bs,
      ⟨rfl, fun hhead => Nat.mod_eq_of_lt (Nat.lt_succ_of_le hhead)⟩, ⟨rfl, rfl, rfl⟩, rfl, ?_⟩
    rfl

/-! ## Frames taken up (R5–R10) -/

/-- Settles O11: a TEMP frame and a non-scan frame ask for their blocks by `takeBlocks_eq`. -/
theorem tempAndNonScanFramesTakeBlocks : Obligations.TempAndNonScanFramesTakeBlocks := by
  intro p f s h
  refine ⟨fun hrole hsound => ?_, fun hnon hup => ?_⟩
  · rw [exec_headFrameReceive h, judgeFrame_eq, if_neg (by rw [hrole]; decide),
      if_neg (by simp [nonScanOn_temp hrole hsound]), if_neg (by rw [hrole]; decide), judgeTemp,
      isMirror, learnt_mirror]
    simp only [decide_eq_true_eq]
    refine congrArg _ (takeBlocks_eq _ id _ ?_)
    by_cases hm : s.mirror = some p <;> simp [HeldFrame.inQueueD, hm]
  · rw [exec_nonScanFrame h hnon, if_pos hup]
    exact congrArg _ (takeBlocks_eq _ id _ (by simp [HeldFrame.inQueueD]))

end Sys2Proof.Machine
end

section
/-! PROOFS. Notices on the head ports and requests on the uplink (R13, R18, R171). -/

namespace Sys2Proof.Machine

/-! ## Notices (R13) -/

/-- A port whose transmitter is busy, without a notice, or in reset sends nothing. -/
theorem startNotice_idle {p : Fin 8} {s : State}
    (h : (s.ports[p]).notice = none ∨ (s.ports[p]).transmitting ≠ none ∨ s.inReset = true) :
    startNotice p s = s := by
  unfold startNotice
  dsimp only
  split
  · rename_i n hnotice hidle hreset
    rcases h with h | h | h
    · exact absurd (hnotice.symm.trans h) (by simp)
    · exact absurd hidle h
    · exact absurd (hreset.symm.trans h) (by simp)
  · rfl

/-- A pending notice begins to be sent. -/
theorem startNotice_pending {p : Fin 8} {s : State} {n : Notice} (hnotice : (s.ports[p]).notice = some n)
    (hidle : (s.ports[p]).transmitting = none) (hreset : s.inReset = false) :
    startNotice p s =
      countPort p.castSucc (if n = .hold then .holdSent else .resumeSent)
        (s.modPort p fun x =>
          { x with
            notice := none
            transmitting := some
              { notice := n
                bytes := noticeBytes (x.learned.getD Config.broadcast) s.upl.station s.upl.frameType n } }) := by
  simp only [startNotice, hnotice, hidle, hreset]
  rfl

/-- The bytes of a HOLD frame: nineteen bytes of fields and their padding. -/
theorem noticeBytes_eq (dest source : Address) (frameType : BitVec 16) (n : Notice) :
    noticeBytes dest source frameType n =
      beNat 6 dest.toNat ++ beNat 6 source.toNat ++ beNat 2 frameType.toNat ++ [1, 3] ++ beNat 2 5 ++
        [if n = .hold then 1 else 0] ++ List.replicate 41 0 := by
  simp [noticeBytes, protocolBytes, padTo, addrBytes]

/-- Settles O13: the cases of `startNotice`, and the layout of the HOLD frame. -/
theorem noticesAreSentOneAtATime : Obligations.NoticesAreSentOneAtATime := by
  refine ⟨fun p s => ⟨fun n hnotice hidle hreset => ?_, fun hidle => ?_, withIndex_val p s endNotice⟩,
    fun dest source frameType n => ?_⟩
  · exact (withIndex_val p s startNotice).trans (congrArg _ (startNotice_pending hnotice hidle hreset))
  · exact (withIndex_val p s startNotice).trans (congrArg _ (startNotice_idle hidle))
  · intro bytes
    have hbytes : bytes = beNat := funext fun k => funext fun v => (beNat_eq_map k v).symm
    rw [hbytes]
    exact noticeBytes_eq dest source frameType n

/-! ## Requests on the uplink (R18, R171) -/

/-- A frame is a request for the part just when its fields say so. -/
theorem isRequest_iff (frameType : BitVec 16) (station : Address) (bs : List Byte) :
    isRequest frameType station bs = true ↔
      natAt bs 0 6 = station.toNat ∧ natAt bs 12 2 = frameType.toNat ∧ natAt bs 14 1 = 1 ∧
        7 ≤ natAt bs 16 2 ∧ natAt bs 16 2 + 14 ≤ bs.length ∧ natAt bs 15 1 = 4 := by
  simp only [isRequest, protocolFrame, Bool.and_eq_true, beq_iff_eq, decide_eq_true_eq]
  simp only [destAddr, ofNat_natAt_six, typeField, versionField, kindField, lengthField]
  constructor
  · rintro ⟨⟨hdest, ⟨⟨htype, hversion⟩, hleast⟩, hfits⟩, hkind⟩
    exact ⟨hdest, htype, hversion, hleast, hfits, hkind⟩
  · rintro ⟨hdest, htype, hversion, hleast, hfits, hkind⟩
    exact ⟨⟨hdest, ⟨⟨htype, hversion⟩, hleast⟩, hfits⟩, hkind⟩

/-- What the uplink judges of a frame that R1 keeps. -/
theorem judgeUplink_eq (bs : List Byte) (s : State) :
    judgeUplink bs s =
      if isRequest s.upl.frameType s.upl.station bs = true then
        offerRequest (requestOf bs) (countPort 8 .admitted (countPort 8 .received s))
      else countPort 8 .nonScanDropped (countPort 8 .received s) := by
  simp only [judgeUplink, countPort_fields]

/-- Settles O14: `judgeUplink_eq`, with a request known by its fields and the room in the input queue. -/
theorem uplinkRequestsJoinTheInputQueue : Obligations.UplinkRequestsJoinTheInputQueue := by
  intro f s h
  have hform := isRequest_iff s.upl.frameType s.upl.station f.bytes
  refine ⟨fun hrequest hroom => ?_, fun hrequest hfull => ?_, fun hother => ?_⟩
  · rw [exec_uplinkFrameReceive h, judgeUplink_eq, if_pos (hform.2 hrequest)]
    exact congrArg _ (if_pos (by simpa [Config.inputQueue] using hroom))
  · rw [exec_uplinkFrameReceive h, judgeUplink_eq, if_pos (hform.2 hrequest)]
    exact congrArg _ (if_neg (by simpa [Config.inputQueue] using hfull))
  · rw [exec_uplinkFrameReceive h, judgeUplink_eq, if_neg fun hrequest => hother (hform.1 hrequest)]

end Sys2Proof.Machine
end

section
/-! PROOFS. SCAN frames that are taken up (R4, R7–R10): their blocks, their entry in queue D and its stamp. -/

namespace Sys2Proof.Machine

/-! ## The entry in queue D (R7, R8) -/

/-- An entry changed to itself leaves the vector. -/
theorem upd_unchanged {α : Type} {n : Nat} {v : Vector α n} {i : Fin n} {f : α → α} (h : f v[i] = v[i]) :
    upd v i f = v := by
  rw [upd, h]
  exact Vector.set_getElem_self i.isLt

/-- A frame has an entry in queue D just when that entry waits to be sent. -/
theorem inQueueD_iff (f : HeldFrame) : f.inQueueD = true ↔ ∃ e, f.queueD = .queued e := by
  unfold HeldFrame.inQueueD
  cases f.queueD <;> simp

/-- Queue D's part in a SCAN frame is none, or an entry that waits. -/
theorem scanEntry_cases (p : Fin 8) (h : Fin 16) (replaced : Bool) (s : State) :
    scanEntry p h replaced s = .none ∨ ∃ e, scanEntry p h replaced s = .queued e := by
  unfold scanEntry
  split
  · exact .inr ⟨_, rfl⟩
  · split
    · exact .inr ⟨_, rfl⟩
    · exact .inl rfl

/-- A SCAN frame's entry waits in queue D, or there is none. -/
theorem scanFrame_inQueueD (p : Fin 8) (stored : List Byte) (replaced : Bool) (s : State) :
    (scanFrame p stored replaced s).inQueueD = true ↔ (scanFrame p stored replaced s).queueD ≠ .none := by
  rw [inQueueD_iff, scanFrame]
  rcases scanEntry_cases p (admittedHead stored) replaced s with hnone | ⟨e, hqueued⟩
  · simp [hnone]
  · simp [hqueued]

/-- The mirror source takes every SCAN frame RAW. -/
theorem scanEntry_mirror {p : Fin 8} {s : State} (hm : s.mirror = some p) (h : Fin 16) (replaced : Bool) :
    scanEntry p h replaced s = .queued .raw := by
  simp [scanEntry, isMirror, hm]

/-- On another port the forwarding decision makes the entry. -/
theorem scanEntry_other {p : Fin 8} {s : State} (hm : s.mirror ≠ some p) (h : Fin 16) (replaced : Bool) :
    scanEntry p h replaced s =
      if forwards s.ports[p] = true then .queued (.forward (stampOf h replaced s)) else .none := by
  simp only [scanEntry, isMirror, hm, decide_false, Bool.false_eq_true, if_false]

/-- The mirror source counts no frame for decimation. -/
theorem advanceDecimation_mirror {p : Fin 8} {s : State} (hm : s.mirror = some p) :
    advanceDecimation p s = s := by
  simp [advanceDecimation, isMirror, hm]

/-- A port's record after its change. -/
theorem modPort_port (p : Fin 8) (f : Port → Port) (s : State) : (s.modPort p f).ports[p] = f s.ports[p] :=
  upd_get_self s.ports p f

/-- The counter of a port that is not under DECIMATED stays. -/
theorem advanceDecimation_still {p : Fin 8} {s : State} (hmode : (s.ports[p]).forwardMode ≠ .decimated) :
    (advanceDecimation p s).ports = s.ports := by
  unfold advanceDecimation
  split
  · rfl
  · dsimp only [State.modPort]
    refine upd_unchanged ?_
    split
    · rename_i hdec
      exact absurd hdec hmode
    · rfl

/-- The counter of a port under DECIMATED that is not the mirror source. -/
theorem advanceDecimation_counter {p : Fin 8} {s : State} (hm : s.mirror ≠ some p)
    (hmode : (s.ports[p]).forwardMode = .decimated) :
    ((advanceDecimation p s).ports[p]).counter =
      if (s.ports[p]).counter + 1 = (s.ports[p]).decimation then 0 else (s.ports[p]).counter + 1 := by
  rw [advanceDecimation, isMirror, decide_eq_false hm, if_neg (by decide), modPort_port]
  simp only [hmode]

/-! ## The position stamp (R9) -/

/-- The stamp's place with a geometry, of a part that is not UNCONFIGURED. -/
theorem stampOf_placed {s : State} {g : Geometry} (hg : s.lmp.geometry = some g)
    (hservice : s.dlb.service ≠ .unconfigured) (h : Fin 16) (replaced : Bool) :
    (stampOf h replaced s).cell = BitVec.ofInt 32 ((s.pos.station - g.origin) / g.cellLength) ∧
      (stampOf h replaced s).residue = ((s.pos.station - g.origin) % g.cellLength).toNat := by
  simp only [stampOf, hg, hservice, ne_eq, not_false_eq_true, decide_true]
  exact ⟨rfl, rfl⟩

/-- The stamp's place without a map is zero. -/
theorem stampOf_unplaced {s : State} (hnone : s.lmp.geometry = none ∨ s.dlb.service = .unconfigured)
    (h : Fin 16) (replaced : Bool) :
    (stampOf h replaced s).cell = 0 ∧ (stampOf h replaced s).residue = 0 := by
  rcases hnone with hnone | hnone
  · simp [stampOf, hnone]
  · cases hg : s.lmp.geometry <;> simp [stampOf, hnone, hg]

/-- The rest of a coordinate within its cell. -/
theorem residue_eq (c : Int) {length : Nat} (hpos : 0 < length) :
    (((c % length).toNat : Nat) : Int) = c - length * (c / length) ∧ (c % length).toNat < length := by
  have hnonneg : 0 ≤ c % length := Int.emod_nonneg c (by omega)
  have hlt : c % length < length := Int.emod_lt_of_pos c (by omega)
  have hrest := Int.emod_def c length
  omega

/-! ## Grants (R10) -/

/-- A sum over the eight ports, as an integer. -/
theorem cast_sum_ports (f : Fin 8 → Nat) :
    ((((List.finRange 8).map f).sum : Nat) : Int) = ((List.finRange 8).map fun p => (f p : Int)).sum := by
  induction List.finRange 8 with
  | nil => rfl
  | cons p l ih => rw [List.map_cons, List.map_cons, List.sum_cons, List.sum_cons, Int.natCast_add, ih]

/-- What a port draws, as an integer. -/
theorem cast_sharedDraw (s : State) (p : Fin 8) :
    (sharedDraw s p : Int) = max 0 ((useCount s.pool.held p : Int) - (s.ports[p]).reserve) := by
  rw [sharedDraw]
  omega

/-- Under the pool law the free shared blocks are what reserves and draws leave of the pool. -/
theorem cast_freeShared {s : State} (h : PoolLaw s) :
    (freeShared s : Int) =
        4096 - ((List.finRange 8).map fun p => ((s.ports[p]).reserve : Int)).sum -
          ((List.finRange 8).map fun p =>
            max 0 ((useCount s.pool.held p : Int) - (s.ports[p]).reserve)).sum := by
  obtain ⟨hsum, huse⟩ := h
  have hfree : freeShared s =
    4096 - ((List.finRange 8).map fun p => (s.ports[p]).reserve).sum - ((List.finRange 8).map (sharedDraw s)).sum :=
    rfl
  change ((List.finRange 8).map (sharedDraw s)).sum ≤ _ at huse
  have hreserves := cast_sum_ports fun p => (s.ports[p]).reserve
  have hdraws := cast_sum_ports (sharedDraw s)
  simp only [cast_sharedDraw] at hdraws
  rw [← hreserves, ← hdraws]
  omega

/-- A grant fits when what it draws in addition is at most the free shared blocks. -/
theorem grantFits_iff (p : Fin 8) (b : Nat) (s : State) :
    grantFits p b s = true ↔
      max 0 ((useCount s.pool.held p : Int) + b - (s.ports[p]).reserve) -
        max 0 ((useCount s.pool.held p : Int) - (s.ports[p]).reserve) ≤ freeShared s := by
  rw [grantFits, decide_eq_true_eq]
  omega

/-- A SCAN frame of a head in use that passed its port's admission. -/
theorem exec_admittedScan {p : Fin 8} {f : Frame} {s : State} {stored : List Byte} {replaced : Bool}
    (h : Arrives s f) (hrole : (s.ports[p]).role = .head) (hsound : soundScan s.upl.frameType f.bytes = true)
    (hstored : storedScan s p f.bytes = some (stored, replaced))
    (hon : (s.heads[admittedHead stored]).state ≠ .off) :
    exec (.headFrameReceive p.val f) s = .next
      (if (scanFrame p stored replaced (learnt p f s)).isHeld then
        takeBlocks (scanFrame p stored replaced (learnt p f s)) (advanceDecimation p) (learnt p f s)
      else advanceDecimation p (countPort p.castSucc .admitted (learnt p f s))) := by
  rw [exec_scanFrame h hrole hsound, hstored]
  exact congrArg _ (admitScan_on (by rw [learnt_heads]; exact hon))

/-- Settles O10: the frame's blocks, its entry, its stamp, and the arithmetic of a grant. -/
theorem admittedScanFramesTakeBlocks : Obligations.AdmittedScanFramesTakeBlocks := by
  refine ⟨fun p f s stored replaced h hrole hsound hstored hon => ?_, fun p h replaced s => ⟨fun hm => ?_,
    fun hm => ⟨fun hoff => ?_, fun hall => ?_, fun hdec => ⟨fun hlast => ?_, fun hless => ?_⟩⟩⟩,
    fun h replaced s => ⟨fun hw => ?_, fun hw => ?_, fun g hg hservice hpos => ?_,
      fun hnone => stampOf_unplaced hnone h replaced, rfl, ?_, ?_, rfl⟩, fun s p b hlaw => ?_⟩
  · intro u entry frame
    have hframe : frame = scanFrame p stored replaced u := by
      simp only [frame, entry, u, scanFrame, learnt_heads]
    have hblocks := takeBlocks_eq _ (advanceDecimation p) u (scanFrame_inQueueD p stored replaced u)
    rw [hframe, exec_admittedScan h hrole hsound hstored hon]
    refine ⟨fun hheld hfits => ?_, fun hheld hfits => ?_, fun hheld => ?_⟩
    · rw [if_pos hheld, hblocks]
      exact congrArg (fun t => Host.Outcome.next (poolChecks p t)) (if_pos hfits)
    · rw [if_pos hheld, hblocks]
      exact congrArg (fun t => Host.Outcome.next (poolChecks p t)) (if_neg (by rw [Bool.not_eq_true]; exact hfits))
    · rw [if_neg (by rw [Bool.not_eq_true]; exact hheld)]
  · exact ⟨scanEntry_mirror hm h replaced, advanceDecimation_mirror hm⟩
  · exact ⟨by rw [scanEntry_other hm, forwards, hoff, if_neg Bool.false_ne_true],
      advanceDecimation_still (by rw [hoff]; decide)⟩
  · exact ⟨by rw [scanEntry_other hm, forwards, hall, if_pos rfl],
      advanceDecimation_still (by rw [hall]; decide)⟩
  · exact ⟨by rw [scanEntry_other hm, forwards, hdec, if_pos (beq_iff_eq.2 hlast)],
      by rw [advanceDecimation_counter hm hdec, if_pos hlast]⟩
  · exact ⟨by rw [scanEntry_other hm, forwards, hdec, if_neg (fun heq => hless (beq_iff_eq.1 heq))],
      by rw [advanceDecimation_counter hm hdec, if_neg hless]⟩
  · exact if_pos hw
  · exact if_neg (by rw [hw]; decide)
  · obtain ⟨hcell, hresidue⟩ := stampOf_placed hg hservice h replaced
    rw [hcell, hresidue]
    exact ⟨rfl, residue_eq _ hpos⟩
  · simp [stampOf]
  · simp [stampOf, inspecting]
  · have hadded : ∀ (f : HeldFrame) (i : Fin 8), (useCount (s.pool.held ++ [f]) i : Int) =
        useCount s.pool.held i + if f.port = i then (f.blocks : Int) else 0 := fun f i => by
      rw [useCount_append, useCount_cons, useCount_nil]
      split
      · omega
      · omega
    have hfree := cast_freeShared hlaw
    exact ⟨hfree, hfree ▸ Int.natCast_nonneg _, hfree ▸ grantFits_iff p b s, hadded⟩

end Sys2Proof.Machine
end

section
/-! PROOFS. The pool checks (R13, R14): flow control raises notices, and eviction takes the oldest entries of queue D
until the level is met. -/

namespace Sys2Proof.Machine

/-! ## Flow control (R13) -/

/-- A notice raised on a port withdraws a pending opposite one. -/
theorem raise_eq (n : Notice) (p : Port) :
    p.raise n = { p with notice := if p.notice = none ∨ p.notice = some n then some n else none } := by
  unfold Port.raise
  cases hn : p.notice with
  | none => rfl
  | some m =>
    by_cases hm : m = n
    · cases p
      simp_all
    · simp [hm]

/-- The flow-control check of a port, by its hold state and its use count. -/
theorem flowCheck_eq (u : Nat) (p : Port) :
    p.flowCheck u =
      if p.role = .off then p
      else if p.hold = .flowing ∧ p.high ≤ u then { p with hold := .holding }.raise .hold
      else if p.hold = .holding ∧ u ≤ p.low then { p with hold := .flowing }.raise .resume
      else p := by
  unfold Port.flowCheck
  cases p.hold <;> simp

/-! ## The oldest entry (R14) -/

/-- A list in which something is selected is split before the first selected. -/
theorem exists_first_selected {p : HeldFrame → Bool} {held : List HeldFrame} (h : held.any p = true) :
    ∃ before f after, held = before ++ f :: after ∧ (∀ x ∈ before, p x = false) ∧ p f = true := by
  obtain ⟨f, hf⟩ := Option.isSome_iff_exists.1 (List.find?_isSome.2 (List.any_eq_true.1 h))
  obtain ⟨hp, before, after, hsplit, hb⟩ := List.find?_eq_some_iff_append.1 hf
  exact ⟨before, f, after, hsplit, fun x hx => by simpa using hb x hx, hp⟩

/-- What a frame that queue D has let go of leaves in the pool: itself with another holder, or nothing. -/
def leftByD (f : HeldFrame) : List HeldFrame := if f.ptu || f.tmu then [f.dropD] else []

/-- The state once the oldest entry, of a frame f, has been taken from queue D. -/
def withoutEntry (before after : List HeldFrame) (f : HeldFrame) (s : State) : State :=
  countPort f.port.castSucc .evicted (setHeld (before ++ leftByD f ++ after) s)

/-- A frame that queue D has let go of is held by the units alone. -/
@[simp] theorem isHeld_dropD (f : HeldFrame) : f.dropD.isHeld = (f.ptu || f.tmu) := by
  simp [HeldFrame.isHeld, HeldFrame.dropD]

/-- The oldest entry evicted. -/
theorem evictOldest_eq {s : State} {before after : List HeldFrame} {f : HeldFrame}
    (hsplit : s.pool.held = before ++ f :: after) (hb : ∀ x ∈ before, x.inQueueD = false)
    (hf : f.inQueueD = true) :
    evictOldest s =
      if f.ptu || f.tmu then withoutEntry before after f s
      else flowControlCheck f.port (withoutEntry before after f s) := by
  have hheld : changeFirst HeldFrame.inQueueD HeldFrame.dropD s.pool.held = before ++ leftByD f ++ after := by
    rw [hsplit, changeFirst_append after hb hf, isHeld_dropD, leftByD, List.append_assoc]
    split <;> rfl
  unfold evictOldest
  rw [hheld, hsplit, find?_append_first after hb hf]
  simp only [isHeld_dropD, withoutEntry]

/-- The pool once the oldest entry is evicted. -/
theorem evictOldest_pool {s : State} {before after : List HeldFrame} {f : HeldFrame}
    (hsplit : s.pool.held = before ++ f :: after) (hb : ∀ x ∈ before, x.inQueueD = false)
    (hf : f.inQueueD = true) :
    (evictOldest s).pool = { s.pool with held := before ++ leftByD f ++ after } := by
  rw [evictOldest_eq hsplit hb hf]
  split <;> simp [withoutEntry, flowControlCheck]

/-- What queue D lets go of is no entry. -/
theorem countP_leftByD (f : HeldFrame) : (leftByD f).countP HeldFrame.inQueueD = 0 := by
  unfold leftByD
  split <;> simp [HeldFrame.inQueueD, HeldFrame.dropD]

/-- Each eviction takes one entry. -/
theorem countP_evictOldest {s : State} (h : s.pool.held.any HeldFrame.inQueueD = true) :
    (evictOldest s).pool.held.countP HeldFrame.inQueueD + 1 = s.pool.held.countP HeldFrame.inQueueD := by
  obtain ⟨before, f, after, hsplit, hb, hf⟩ := exists_first_selected h
  rw [evictOldest_pool hsplit hb hf, hsplit]
  simp only [List.countP_append, List.countP_cons, countP_leftByD, hf, if_true]
  omega

/-- An eviction leaves the eviction level. -/
theorem evictionLevel_evictOldest {s : State} (h : s.pool.held.any HeldFrame.inQueueD = true) :
    (evictOldest s).pool.evictionLevel = s.pool.evictionLevel := by
  obtain ⟨before, f, after, hsplit, hb, hf⟩ := exists_first_selected h
  rw [evictOldest_pool hsplit hb hf]

/-- The frames that the fragment and temperature units hold, with what they are. -/
def heldByUnits (held : List HeldFrame) : List (Fin 8 × List Byte × Bool × Bool) :=
  (held.filter fun f => f.ptu || f.tmu).map fun f => (f.port, f.bytes, f.ptu, f.tmu)

/-- The frames that the units hold of a list in two parts. -/
theorem heldByUnits_append (l r : List HeldFrame) : heldByUnits (l ++ r) = heldByUnits l ++ heldByUnits r := by
  simp [heldByUnits]

/-- Queue D's letting go of a frame is nothing to the units. -/
theorem heldByUnits_leftByD (f : HeldFrame) : heldByUnits (leftByD f) = heldByUnits [f] := by
  cases hu : (f.ptu || f.tmu) <;> simp [leftByD, heldByUnits, HeldFrame.dropD, hu]

/-- An eviction leaves the frames that the units hold. -/
theorem heldByUnits_evictOldest {s : State} (h : s.pool.held.any HeldFrame.inQueueD = true) :
    heldByUnits (evictOldest s).pool.held = heldByUnits s.pool.held := by
  obtain ⟨before, f, after, hsplit, hb, hf⟩ := exists_first_selected h
  rw [evictOldest_pool hsplit hb hf, hsplit, List.append_cons]
  simp only [heldByUnits_append, heldByUnits_leftByD]

/-! ## The eviction check (R14) -/

/-- The eviction check goes on: the level is not met and queue D holds an entry. -/
def evicts (s : State) : Bool :=
  freeShared s < s.pool.evictionLevel && s.pool.held.any HeldFrame.inQueueD

/-- One turn of the eviction check. -/
theorem evictLoop_succ (fuel : Nat) (s : State) :
    evictLoop (fuel + 1) s = if evicts s then evictLoop fuel (evictOldest s) else s := rfl

/-- The eviction check stops. -/
theorem evictLoop_stop {s : State} (h : evicts s = false) (fuel : Nat) : evictLoop fuel s = s := by
  cases fuel with
  | zero => rfl
  | succ fuel => rw [evictLoop_succ, h, if_neg Bool.false_ne_true]

/-- While it goes on, queue D holds an entry. -/
theorem any_of_evicts {s : State} (h : evicts s = true) : s.pool.held.any HeldFrame.inQueueD = true :=
  (Bool.and_eq_true_iff.1 h).2

/-- Without an entry in queue D nothing is evicted. -/
theorem evicts_of_countP_zero {s : State} (h : s.pool.held.countP HeldFrame.inQueueD ≤ 0) :
    evicts s = false := by
  rw [Nat.le_zero, List.countP_eq_zero] at h
  have hany : s.pool.held.any HeldFrame.inQueueD = false := by simpa using h
  rw [evicts, hany, Bool.and_false]

/-- The fuel of the eviction check does not matter once it covers the entries of queue D. -/
theorem evictLoop_fuel {s : State} {m n : Nat} (hm : s.pool.held.countP HeldFrame.inQueueD ≤ m)
    (hn : s.pool.held.countP HeldFrame.inQueueD ≤ n) : evictLoop m s = evictLoop n s := by
  induction m generalizing s n with
  | zero => rw [evictLoop_stop (evicts_of_countP_zero hm), evictLoop_stop (evicts_of_countP_zero hm)]
  | succ m ih =>
    cases n with
    | zero => rw [evictLoop_stop (evicts_of_countP_zero hn), evictLoop_stop (evicts_of_countP_zero hn)]
    | succ n =>
      rw [evictLoop_succ, evictLoop_succ]
      split
      · rename_i hevicts
        have hless := countP_evictOldest (any_of_evicts hevicts)
        exact ih (by omega) (by omega)
      · rfl

/-- The eviction check of a state in which it goes on is that of the state after one eviction. -/
theorem evictionCheck_step {s : State} (h : evicts s = true) : evictionCheck s = evictionCheck (evictOldest s) := by
  have hless := countP_evictOldest (any_of_evicts h)
  have hentries : s.pool.held.countP HeldFrame.inQueueD ≤ s.pool.held.length := List.countP_le_length
  have hone : evictLoop (s.pool.held.length - 1 + 1) s = evictLoop (s.pool.held.length - 1) (evictOldest s) := by
    rw [evictLoop_succ, if_pos h]
  rw [evictionCheck, evictionCheck, ← Nat.sub_add_cancel (show 1 ≤ s.pool.held.length by omega), hone]
  exact evictLoop_fuel (by omega) List.countP_le_length

/-- The eviction check of a state in which it stops. -/
theorem evictionCheck_stop {s : State} (h : evicts s = false) : evictionCheck s = s := evictLoop_stop h _

/-- What holds where the check stops, and carries back over each eviction, holds of the state that it leaves. -/
theorem evictionCheck_induct {P : State → State → Prop} (hstop : ∀ s, evicts s = false → P s s)
    (hstep : ∀ s t, evicts s = true → P (evictOldest s) t → P s t) (s : State) : P s (evictionCheck s) := by
  have hloop : ∀ (fuel : Nat) (s : State), s.pool.held.countP HeldFrame.inQueueD ≤ fuel →
      P s (evictLoop fuel s) := by
    intro fuel
    induction fuel with
    | zero => exact fun s hs => hstop s (evicts_of_countP_zero hs)
    | succ fuel ih =>
      intro s hs
      rw [evictLoop_succ]
      split
      · rename_i hevicts
        have hless := countP_evictOldest (any_of_evicts hevicts)
        exact hstep s _ hevicts (ih _ (by omega))
      · rename_i hstops
        exact hstop s (by simpa using hstops)
  exact hloop _ s List.countP_le_length

/-- The eviction check ends with the level met or with no entry in queue D. -/
theorem evictionCheck_ends (s : State) :
    s.pool.evictionLevel ≤ freeShared (evictionCheck s) ∨
      (evictionCheck s).pool.held.all (fun f => !f.inQueueD) = true := by
  refine evictionCheck_induct
    (P := fun s t => s.pool.evictionLevel ≤ freeShared t ∨ t.pool.held.all (fun f => !f.inQueueD) = true)
    (fun s hstops => ?_) (fun s t hevicts ht => ?_) s
  · rcases Bool.and_eq_false_iff.1 hstops with hmet | hnone
    · exact .inl (by simpa using hmet)
    · exact .inr (by simpa using hnone)
  · rwa [evictionLevel_evictOldest (any_of_evicts hevicts)] at ht

/-- The eviction check leaves the frames that the units hold. -/
theorem heldByUnits_evictionCheck (s : State) :
    heldByUnits (evictionCheck s).pool.held = heldByUnits s.pool.held :=
  evictionCheck_induct (P := fun s t => heldByUnits t.pool.held = heldByUnits s.pool.held)
    (fun _ _ => rfl) (fun _ _ hevicts ht => ht.trans (heldByUnits_evictOldest (any_of_evicts hevicts))) s

/-- Settles O12: the flow-control check by its cases, the eviction check by `evictionCheck_step`. -/
theorem poolChecksRaiseNoticesAndEvict : Obligations.PoolChecksRaiseNoticesAndEvict := by
  refine ⟨fun p s => ?_, fun s => ⟨evictionCheck_ends s, heldByUnits_evictionCheck s, fun hmet => ?_⟩,
    fun s => ⟨fun hnone => ?_, fun before after f hsplit hb hf hlow => ?_⟩⟩
  · intro x u raised
    have hport : flowControlCheck p s = s.modPort p fun _ => x.flowCheck u := rfl
    rw [hport, flowCheck_eq, raise_eq, raise_eq]
  · exact evictionCheck_stop (by rw [evicts, decide_eq_false (Nat.not_lt.2 hmet), Bool.false_and])
  · exact evictionCheck_stop (by simpa [evicts] using fun _ => hnone)
  · intro without
    have hevicts : evicts s = true := by simp [evicts, hlow, hsplit, hf]
    rw [evictionCheck_step hevicts, evictOldest_eq hsplit hb hf]
    by_cases hu : f.ptu = true ∨ f.tmu = true
    · have hleft : leftByD f = [f.dropD] := if_pos (by simpa using hu)
      rw [if_pos (by simpa using hu), if_pos hu, withoutEntry, hleft]
      rfl
    · have hleft : leftByD f = [] := if_neg (by simpa using hu)
      rw [if_neg (by simpa using hu), if_neg hu, withoutEntry, hleft]
      rfl

end Sys2Proof.Machine
end

section
/-! PROOFS. The sending of a frame on the uplink (R9, R19, R160, R167): how it begins, its bytes, and what its end
releases (R11, R163, R179). -/

namespace Sys2Proof.Machine

/-! ## The beginning of a sending (R19, R160, R167) -/

/-- A frame of queue A, B or C begins to be sent to the destination that the binding gives. -/
theorem sendReport_cons (q : QueueId) (f : OutFrame) (rest : List OutFrame) (s : State) :
    sendReport q (f :: rest) s = sending s q f := by
  have hdest : reportDest s =
      if s.mga.mode = .fixed then s.mga.fixed
      else if s.mga.mode = .first then s.mga.bound.getD s.upl.report
      else s.upl.report := by
    unfold reportDest
    cases s.mga.mode <;> simp
  rw [sending, ← hdest]
  rfl

/-- A queued entry as its sending begins. -/
theorem startSending_queued {f : HeldFrame} {e : DEntry} (h : f.queueD = .queued e) :
    f.startSending = { f with queueD := .sending e } := by
  simp only [HeldFrame.startSending, h]

/-- The oldest entry of queue D begins to be sent. -/
theorem beginSending_d {s : State} {before after : List HeldFrame} {f : HeldFrame} {e : DEntry}
    (hsplit : s.pool.held = before ++ f :: after) (hb : ∀ x ∈ before, x.inQueueD = false)
    (he : f.queueD = .queued e) :
    beginSending .d s =
      setSending (some { queue := .d, bytes := entryBytes s f })
        (setHeld (before ++ { f with queueD := .sending e } :: after) s) := by
  have hf : f.inQueueD = true := (inQueueD_iff f).2 ⟨e, he⟩
  have hheld : ({ f with queueD := .sending e } : HeldFrame).isHeld = true := by simp [HeldFrame.isHeld]
  unfold beginSending
  dsimp only
  rw [hsplit, find?_append_first after hb hf, changeFirst_append after hb hf, startSending_queued he, if_pos hheld]

/-! ## The bytes of frames (1.7, R9, R19) -/

/-- A two-byte field is its high byte and its low byte. -/
theorem natAt_two {bs : List Byte} {offset : Nat} {high low : Byte} (hhigh : bs[offset]? = some high)
    (hlow : bs[offset + 1]? = some low) : natAt bs offset 2 = 256 * high.toNat + low.toNat := by
  obtain ⟨hlt, hhigh⟩ := List.getElem?_eq_some_iff.1 hhigh
  obtain ⟨hlt', hlow⟩ := List.getElem?_eq_some_iff.1 hlow
  rw [natAt_succ bs offset 1 hlt', natAt_succ bs offset 0 hlt, natAt_zero, hlow]
  simp only [Nat.add_zero, hhigh]
  omega

/-- The bytes of a FORWARD entry are as long as its length field says, with the stamp. -/
theorem forwardBytes_length (dest source : Address) (x : Stamp) {bs : List Byte}
    (h : 14 + natAt bs 16 2 ≤ bs.length) :
    (forwardBytes dest source x bs).length = 14 + natAt bs 16 2 + 12 := by
  simp [forwardBytes, field, stampBytes, addrBytes, wordBytes]
  omega

/-- Settles O16: the head of each queue, the bytes of a FORWARD entry, and the bytes of each kind of content. -/
theorem sendingBeginsWithTheHeadOfTheQueue : Obligations.SendingBeginsWithTheHeadOfTheQueue := by
  refine ⟨fun s => ⟨fun f rest h => ?_, fun f rest h => ?_, fun f rest h => ?_,
    fun before after f e hsplit hb he => ?_⟩, fun dest source x bs high low hhigh hlow => ?_, fun report f => ?_⟩
  · rw [← sendReport_cons .a f rest s, ← h]
    rfl
  · rw [← sendReport_cons .b f rest s, ← h]
    rfl
  · rw [← sendReport_cons .c f rest s, ← h]
    rfl
  · rw [beginSending_d hsplit (by simpa using hb) he]
    simp only [entryBytes, he]
    cases e <;> rfl
  · intro length bytes flags sent
    have hbytes : bytes = beNat := funext fun k => funext fun v => (beNat_eq_map k v).symm
    have hlength : length = natAt bs 16 2 := (natAt_two hhigh hlow).symm
    rw [hbytes, hlength]
    refine ⟨?_, fun hfits => forwardBytes_length dest source x (by omega)⟩
    simp only [sent, forwardBytes, stampBytes, addrBytes, wordBytes, field, boolByte, flags, List.append_assoc]
  · intro bytes signed flag dest frame status alarm event verdict band zone entry
    have hbytes : bytes = beNat := funext fun k => funext fun v => (beNat_eq_map k v).symm
    have hsigned : signed = beInt := funext fun k => funext fun v => congrFun (congrFun hbytes k) _
    have hdest : dest = f.dest.getD report := by
      simp only [dest]
      cases f.dest <;> rfl
    have hframe : frame = protocolBytes (f.dest.getD report) f.source f.frameType := by
      simp only [frame, hbytes, hdest]
      rfl
    have hstatus : status = Status.code := funext fun x => by cases x <;> rfl
    have halarm : alarm = AlarmKind.code := funext fun x => by cases x <;> rfl
    have hevent : event = EventKind.code := funext fun x => by cases x <;> rfl
    have hverdict : verdict = PieceVerdict.code := funext fun x => by cases x <;> rfl
    have hband : band = Band.code := funext fun x => by cases x <;> rfl
    have hzone : zone = zoneReport := funext fun z => by
      simp only [zone, hbytes, zoneReport]
      cases z.cls <;> cases z.lead <;> rfl
    have hentry : entry = sectionEntry := funext fun g => by
      simp only [entry, hsigned, hband]
      rfl
    rw [hframe, hbytes, hstatus, halarm, hevent, hverdict, hzone, hentry, outBytes]
    cases f.content <;> rfl

end Sys2Proof.Machine
end

section
/-! PROOFS. The end of a sending on the uplink (R11, R19, R160, R163, R179): what leaves its queue, the piece reports
that take the place, and the blocks released. -/

namespace Sys2Proof.Machine

/-! ## What leaves (R19, R160, R179) -/

/-- A frame that has been sent, by the queue it came from. -/
theorem exec_uplinkSendEnd_sent {s : State} {x : Sending} (h : s.upl.sending = some x) :
    exec .uplinkSendEnd s = .next
      (match x.queue with
       | .a => noteSent s.egs.a.head? { setSending none s with egs := { s.egs with a := s.egs.a.drop 1 } }
       | .b => queuePieceReports { setSending none s with egs := { s.egs with b := s.egs.b.drop 1 } }
       | .c => { setSending none s with egs := { s.egs with c := s.egs.c.drop 1 } }
       | .d => releaseFirst HeldFrame.onWire HeldFrame.dropD (setSending none s)) := by
  refine congrArg Host.Outcome.next ?_
  simp only [endSending, h]
  cases x.queue <;> rfl

/-- The waiting RESET after a frame has been sent: due at once when the frame answered it. -/
theorem noteSent_some (f : OutFrame) (s : State) :
    noteSent (some f) s =
      { s with
        mga := { s.mga with
          reset := if s.mga.reset = .waiting ∧ f.answersReset = true then .due else s.mga.reset }
        pending :=
          if s.mga.reset = .waiting ∧ f.answersReset = true then .softReset :: s.pending else s.pending } := by
  rw [noteSent, Option.any_some]
  split <;> rfl

/-! ## Piece reports from the log (R163) -/

/-- The queueing of reports leaves the entries and their order. -/
theorem queueFromLog_completed (mk : CompletedPiece → OutFrame) (room : Nat) (log : List LogEntry) :
    (queueFromLog mk room log).1.map (·.completed) = log.map (·.completed) := by
  induction log generalizing room with
  | nil => rw [queueFromLog]
  | cons e log ih =>
    cases hsent : e.sent with
    | true => simp [queueFromLog, hsent, ih]
    | false => cases room <;> simp [queueFromLog, hsent, ih]

/-- The oldest UNSENT entries, as many as there is room for, become SENT. -/
theorem queueFromLog_unsent (mk : CompletedPiece → OutFrame) (room : Nat) (log : List LogEntry) :
    (queueFromLog mk room log).1.filter (fun e => !e.sent) = (log.filter fun e => !e.sent).drop room := by
  induction log generalizing room with
  | nil => simp [queueFromLog]
  | cons e log ih =>
    cases hsent : e.sent with
    | true => simp [queueFromLog, hsent, ih]
    | false => cases room <;> simp [queueFromLog, hsent, ih]

/-- The reports made are those of the oldest UNSENT entries, in their order. -/
theorem queueFromLog_reports (mk : CompletedPiece → OutFrame) (room : Nat) (log : List LogEntry) :
    (queueFromLog mk room log).2 = ((log.filter fun e => !e.sent).take room).map fun e => mk e.completed := by
  induction log generalizing room with
  | nil => simp [queueFromLog]
  | cons e log ih =>
    cases hsent : e.sent with
    | true => simp [queueFromLog, hsent, ih]
    | false => cases room <;> simp [queueFromLog, hsent, ih]

/-- The clearing test of R164 leaves queues and log. -/
theorem backlogClearTest_fields (s : State) :
    (backlogClearTest s).egs = s.egs ∧ (backlogClearTest s).pcu = s.pcu := by
  unfold backlogClearTest
  split <;> exact ⟨rfl, rfl⟩

/-- Queue B and the log once piece reports have been queued. -/
theorem queuePieceReports_fields (s : State) :
    (queuePieceReports s).egs.b = s.egs.b ++
        (queueFromLog (fun c => makeFrame s none (.piece c)) (32 - s.egs.b.length) s.pcu.log).2 ∧
      (queuePieceReports s).pcu.log =
        (queueFromLog (fun c => makeFrame s none (.piece c)) (32 - s.egs.b.length) s.pcu.log).1 := by
  obtain ⟨hegs, hpcu⟩ := backlogClearTest_fields
    { s with
      pcu := { s.pcu with
        log := (queueFromLog (fun c => makeFrame s none (.piece c)) (32 - s.egs.b.length) s.pcu.log).1 }
      egs := { s.egs with
        b := s.egs.b ++
          (queueFromLog (fun c => makeFrame s none (.piece c)) (32 - s.egs.b.length) s.pcu.log).2 } }
  exact ⟨congrArg (·.b) hegs, congrArg (·.log) hpcu⟩

/-! ## Blocks released (R11) -/

/-- A holder of no frame lets go of nothing. -/
theorem releaseFirst_none {holds : HeldFrame → Bool} {s : State} (h : ∀ x ∈ s.pool.held, holds x = false)
    (letGo : HeldFrame → HeldFrame) : releaseFirst holds letGo s = s := by
  have hnone : s.pool.held.find? holds = none := List.find?_eq_none.2 fun x hx => by simp [h x hx]
  rw [releaseFirst, hnone]

/-- A holder lets go of the first frame it holds. -/
theorem releaseFirst_split {holds : HeldFrame → Bool} {s : State} {before after : List HeldFrame}
    {f : HeldFrame} (hsplit : s.pool.held = before ++ f :: after) (hb : ∀ x ∈ before, holds x = false)
    (hf : holds f = true) (letGo : HeldFrame → HeldFrame) :
    releaseFirst holds letGo s =
      if (letGo f).isHeld then setHeld (before ++ letGo f :: after) s
      else poolChecks f.port (setHeld (before ++ after) s) := by
  unfold releaseFirst
  rw [hsplit, find?_append_first after hb hf, changeFirst_append after hb hf]
  cases hheld : (letGo f).isHeld <;> simp [hheld]

/-- A frame is held when one of its three holders holds it. -/
theorem isHeld_iff (f : HeldFrame) :
    f.isHeld = true ↔ f.ptu = true ∨ f.tmu = true ∨ f.queueD ≠ .none := by
  simp [HeldFrame.isHeld, or_assoc]

/-- Settles O17: each queue at the end of a sending, the reports from the log, and the release of a frame. -/
theorem sendEndReleasesWhatWasSent : Obligations.SendEndReleasesWhatWasSent := by
  refine ⟨fun s x hx => ⟨fun hq f rest hhead => ?_, fun hq => ?_, fun hq => ?_, fun hq => ?_⟩,
    fun s hroom => ⟨?_, ?_, ?_⟩,
    fun holds letGo s => ⟨fun hnone => releaseFirst_none hnone letGo, fun before after f hsplit hb hf =>
      ⟨fun hkept => ?_, fun hlast => ?_, fun p => ?_⟩⟩⟩
  · rw [exec_uplinkSendEnd_sent hx, hq, hhead]
    exact congrArg _ (noteSent_some f _)
  · rw [exec_uplinkSendEnd_sent hx, hq]
    rfl
  · rw [exec_uplinkSendEnd_sent hx, hq]
    rfl
  · rw [exec_uplinkSendEnd_sent hx, hq]
    rfl
  · rw [(queuePieceReports_fields s).1, queueFromLog_reports]
    rfl
  · rw [(queuePieceReports_fields s).2, queueFromLog_completed]
  · rw [(queuePieceReports_fields s).2, queueFromLog_unsent]
  · rw [releaseFirst_split hsplit hb hf, if_pos ((isHeld_iff _).2 hkept)]
    rfl
  · rw [releaseFirst_split hsplit hb hf, if_neg (fun hheld => hlast ((isHeld_iff _).1 hheld))]
    rfl
  · have hblocks : f.blocks = ceilDiv f.bytes.length 128 := rfl
    rw [hsplit, useCount_append, useCount_append, useCount_cons, hblocks]
    omega

end Sys2Proof.Machine
end

section
/-! SUPPORT. Configuration items (11.4, R175): what the index, the code, the range and the address of an entry let
through, what a setting reads as, and the response of a request of one entry. -/

namespace Sys2Proof.Machine

/-! ## Listed sets (R173) -/

/-- The code of a listed value names it. -/
theorem codeIn_positionIn {α : Type} [DecidableEq α] {l : List α} {x : α} (hx : x ∈ l) :
    codeIn l (positionIn l x) = some x := by
  have hlt : l.idxOf x < l.length := List.idxOf_lt_length_iff.2 hx
  simp [codeIn, positionIn, List.getElem?_eq_getElem hlt]

/-- Every role is listed. -/
theorem mem_roleList (m : Role) : m ∈ roleList := by cases m <;> decide

/-- Every admission mode is listed. -/
theorem mem_admissionList (m : AdmissionMode) : m ∈ admissionList := by cases m <;> decide

/-- Every non-scan disposition is listed. -/
theorem mem_dispositionList (m : Disposition) : m ∈ dispositionList := by cases m <;> decide

/-- Every forward mode is listed. -/
theorem mem_forwardList (m : ForwardMode) : m ∈ forwardList := by cases m <;> decide

/-- Every scheduling mode is listed. -/
theorem mem_schedList (m : SchedMode) : m ∈ schedList := by cases m <;> decide

/-- Every binding mode is listed. -/
theorem mem_bindingList (m : BindingMode) : m ∈ bindingList := by cases m <;> decide

/-- A head id is its own code. -/
theorem codeIn_headIds (h : Fin 16) : codeIn headIds h.val = some h := by
  simp [codeIn, headIds]

/-! ## What an entry lets through (R175) -/

/-- The number of one of n. -/
@[simp] theorem toFin_val {n : Nat} (i : Fin n) : toFin n i.val = some i := by simp [toFin]

/-- An index that names one of n. -/
theorem atIndex_val {n : Nat} (i : Fin n) (s : State) (f : Fin n → Written) : atIndex n i.val s f = f i := by
  simp [atIndex]

/-- The code of a listed value lets it through. -/
theorem withCode_of {α : Type} [DecidableEq α] {l : List α} {x : α} (hx : x ∈ l) {v : Int}
    (hv : v = positionIn l x) (s : State) (f : α → Written) : withCode l v s f = f x := by
  simp only [withCode, hv, codeIn_positionIn hx]

/-- A head id lets itself through. -/
theorem withCode_headIds {h : Fin 16} {v : Int} (hv : v = h.val) (s : State) (f : Fin 16 → Written) :
    withCode headIds v s f = f h := by
  simp only [withCode, hv, codeIn_headIds]

/-- A value within its range. -/
theorem withinRange_inside {lo hi v : Int} (hlo : lo ≤ v) (hhi : v ≤ hi) (s : State) (f : Nat → Written) :
    withinRange lo hi v s f = f v.toNat := if_pos ⟨hlo, hhi⟩

/-- A value outside its range. -/
theorem withinRange_outside {lo hi v : Int} (h : v < lo ∨ hi < v) (s : State) (f : Nat → Written) :
    withinRange lo hi v s f = refused .badValue s := if_neg (by omega)

/-- A value that is an address. -/
theorem withAddress_address {value : List Byte} (h : natAt value 0 2 = 0) (s : State) (f : Address → Written) :
    withAddress value s f = f (BitVec.ofNat 48 (natAt value 2 6)) := if_pos h

/-- A value that is no address. -/
theorem withAddress_other {value : List Byte} (h : natAt value 0 2 ≠ 0) (s : State) (f : Address → Written) :
    withAddress value s f = refused .badValue s := if_neg h

/-! ## What a setting reads as (11.4) -/

/-- A setting of a port. -/
theorem itemReading_port {item : Nat} (hitem : item ≤ 10) (p : Fin 8) (s : State) :
    itemReading item p.val s = (portSetting item p s).map (beNat 8) := by
  rw [itemReading, if_pos (by omega), settingValue, if_pos hitem, toFin_val]
  rfl

/-- A setting of the part, at index 0. -/
theorem itemReading_part {item : Nat} (hlow : 10 < item) (hhigh : item < 64)
    (hother : item ≠ 28 ∧ item ≠ 36 ∧ item ≠ 39) (s : State) :
    itemReading item 0 s = (partSetting item s).map (beNat 8) := by
  obtain ⟨hline, hquota, hfilter⟩ := hother
  rw [itemReading, if_pos hhigh, settingValue, if_neg (by omega), if_neg hline, if_neg hquota, if_neg hfilter,
    if_pos rfl]

/-! ## A request of one entry (R175) -/

/-- The answer to a one-entry request, by what the entry's judging and the reading of its item give. -/
theorem answered_write {source : Address} {item index : Nat} {value : List Byte} {u t : State} {st : Status}
    {held : List Byte} (hitem : item ≠ 22)
    (hwrite : writeItem source { item := item, index := index, value := value } u = (st, t))
    (hread : itemReading item index t = some held) (r : Request) :
    (let w := writeItem source { item := item, index := index, value := value } u
     answered r w.1
       (resultData item index w.1 ((itemReading item index w.2).getD (beNat 8 0)) (addedBytes item index w.2))
       w.2) = written r item index st held t := by
  have hadded : addedBytes item index t = [] := if_neg fun h => hitem h.1
  simp only [hwrite, hread, hadded, Option.getD_some]
  rfl

/-- A ready one-entry request, answered by the row of its item. -/
theorem takeWrite_written {s : State} {r : Request} {rest : List Request} {item index : Nat}
    {value : List Byte} (h : Ready s r rest) (hw : Writes r item index value) {items : List Nat}
    {t : State} {st : Status} {held : List Byte}
    (hwrite : writeItem r.source { item := item, index := index, value := value } (begun s r rest) = (st, t))
    (hread : itemReading item index t = some held)
    (hi : items.contains item = true := by decide) (hitem : item ≠ 22 := by decide) :
    Host.Outcome.next (takeWrite items s) =
      (.next (written r item index st held t) : Host.Outcome State Fault Refusal) :=
  congrArg _ ((takeWrite_writes h hw hi).trans (answered_write hitem hwrite hread r))

/-- A ready one-entry request of an item without a row of its own. -/
theorem execWriteConfigItem_written {s : State} {r : Request} {rest : List Request} {item index : Nat}
    {value : List Byte} (h : Ready s r rest) (hw : Writes r item index value)
    {t : State} {st : Status} {held : List Byte}
    (hwrite : writeItem r.source { item := item, index := index, value := value } (begun s r rest) = (st, t))
    (hread : itemReading item index t = some held)
    (hi : itemsWithRow.contains item = false := by decide) (hitem : item ≠ 22 := by decide) :
    exec .writeConfigItem s = .next (written r item index st held t) :=
  (execWriteConfigItem_writes h hw hi).trans (congrArg _ (answered_write hitem hwrite hread r))

end Sys2Proof.Machine
end

section
/-! PROOFS. Writes of the settings of the ports (R3, R6–R8, R16, R33). -/

namespace Sys2Proof.Machine

/-! ## The role of a port (R16, R33) -/

/-- Changes of a port that make the same of its record are the same change. -/
theorem modPort_congr {p : Fin 8} {f g : Port → Port} {s : State} (h : f s.ports[p] = g s.ports[p]) :
    s.modPort p f = s.modPort p g := by
  simp only [State.modPort, upd, h]

/-- A flow-control check leaves every setting of its port. -/
theorem flowCheck_settings (u : Nat) (p : Port) :
    (p.flowCheck u).role = p.role ∧ (p.flowCheck u).high = p.high ∧ (p.flowCheck u).low = p.low := by
  rw [flowCheck_eq, raise_eq, raise_eq]
  split
  · exact ⟨rfl, rfl, rfl⟩
  · split
    · exact ⟨rfl, rfl, rfl⟩
    · split
      · exact ⟨rfl, rfl, rfl⟩
      · exact ⟨rfl, rfl, rfl⟩

/-- The port's settings after its flow-control check. -/
theorem flowControlCheck_settings (p : Fin 8) (s : State) :
    ((flowControlCheck p s).ports[p]).role = (s.ports[p]).role ∧
      ((flowControlCheck p s).ports[p]).high = (s.ports[p]).high ∧
      ((flowControlCheck p s).ports[p]).low = (s.ports[p]).low := by
  rw [flowControlCheck, modPort_port]
  exact flowCheck_settings _ _

/-- A role written to a port in use. -/
theorem writeRole_inUse {p : Fin 8} {s : State} (h : (s.ports[p]).role ≠ .off) (m : Role) :
    writeRole p m s =
      if m = .head then s.modPort p (Port.writeRole m)
      else (s.modPort p (Port.writeRole m)).modOutput p TrigOutput.cleared := by
  rw [writeRole, decide_eq_false h]
  rfl

/-- A role written to an OFF port, with the flow-control check. -/
theorem writeRole_fromOff {p : Fin 8} {s : State} (h : (s.ports[p]).role = .off) (m : Role) :
    writeRole p m s =
      if m = .head then flowControlCheck p (s.modPort p (Port.writeRole m))
      else (flowControlCheck p (s.modPort p (Port.writeRole m))).modOutput p TrigOutput.cleared := by
  rw [writeRole, decide_eq_true h]
  rfl

/-- The port record after a role write to OFF. -/
theorem writeRole_record_off (x : Port) :
    x.writeRole .off = { x with role := .off, hold := .flowing, notice := none } := rfl

/-- The record of a port in use after a role write that keeps it in use. -/
theorem writeRole_record_inUse {x : Port} (h : x.role ≠ .off) {m : Role} (hm : m ≠ .off) :
    x.writeRole m = { x with role := m } := by
  cases m with
  | off => exact absurd rfl hm
  | head => exact if_neg h
  | pyro => exact if_neg h

/-- The record of an OFF port after a role write that takes it into use. -/
theorem writeRole_record_fromOff {x : Port} (h : x.role = .off) {m : Role} (hm : m ≠ .off) :
    x.writeRole m =
      { x with role := m, notice := if x.notice = none ∨ x.notice = some .resume then some .resume else none } := by
  have hraised : x.writeRole m = { x with role := m }.raise .resume := by
    cases m with
    | off => exact absurd rfl hm
    | head => exact if_pos h
    | pyro => exact if_pos h
  rw [hraised, raise_eq]

/-- The record of a port has the role that was written. -/
theorem writeRole_record_role (x : Port) (m : Role) : (x.writeRole m).role = m := by
  by_cases hm : m = .off
  · rw [hm, writeRole_record_off]
  · by_cases hx : x.role = .off
    · rw [writeRole_record_fromOff hx hm]
    · rw [writeRole_record_inUse hx hm]

/-- A port has the role that was written. -/
theorem writeRole_role (p : Fin 8) (m : Role) (s : State) : ((writeRole p m s).ports[p]).role = m := by
  have hwritten : ((s.modPort p (Port.writeRole m)).ports[p]).role = m := by
    rw [modPort_port, writeRole_record_role]
  have hchecked := (flowControlCheck_settings p (s.modPort p (Port.writeRole m))).1.trans hwritten
  by_cases hoff : (s.ports[p]).role = .off
  · rw [writeRole_fromOff hoff]
    split
    · exact hchecked
    · exact hchecked
  · rw [writeRole_inUse hoff]
    split
    · exact hwritten
    · exact hwritten

/-! ## Settings of ports -/

/-- The code of a mirror source, with 8 for none. -/
theorem elim_toFin_eight {n : Nat} (h : n ≤ 8) : (toFin 8 n).elim 8 (·.val) = n := by
  unfold toFin
  split
  · rfl
  · simp only [Option.elim]
    omega

/-- Settles O51: each item's rule, the reading of what it stored, and the four kinds of role change. -/
theorem portSettingWritesTakeEffect : Obligations.PortSettingWritesTakeEffect := by
  refine ⟨fun s r rest item index value h hw => ⟨fun p hp => ?_, fun hitem hindex hlow hhigh => ?_⟩,
    fun p s => ⟨fun hon => ⟨?_, ?_, ?_⟩, fun hoff m hm => ?_⟩⟩
  · subst hp
    refine ⟨fun m hitem hv => ?_, fun m hitem hv => ?_, fun m hitem hv => ?_, fun m hitem hv => ?_,
      fun m hitem hv => ?_, fun hitem => ?_, fun hitem => ?_⟩ <;> subst hitem
    · refine takeWrite_written h hw ((atIndex_val p _ _).trans (withCode_of (mem_roleList m) hv _ _)) ?_
      rw [itemReading_port (by decide), portSetting, writeRole_role, hv]
      rfl
    · refine execWriteConfigItem_written h hw
        ((atIndex_val p _ _).trans (withCode_of (mem_admissionList m) hv _ _)) ?_
      rw [itemReading_port (by decide), portSetting, modPort_port, hv]
      rfl
    · refine execWriteConfigItem_written h hw ((atIndex_val p _ _).trans (withCode_headIds hv _ _)) ?_
      rw [itemReading_port (by decide), portSetting, modPort_port, hv]
      rfl
    · refine execWriteConfigItem_written h hw
        ((atIndex_val p _ _).trans (withCode_of (mem_dispositionList m) hv _ _)) ?_
      rw [itemReading_port (by decide), portSetting, modPort_port, hv]
      rfl
    · refine takeWrite_written h hw ((atIndex_val p _ _).trans (withCode_of (mem_forwardList m) hv _ _)) ?_
      rw [itemReading_port (by decide), portSetting, modPort_port, hv]
      rfl
    · refine takeWrite_written h hw (atIndex_val p _ _) ?_
      rw [itemReading_port (by decide), portSetting, modPort_port]
      rfl
    · refine execWriteConfigItem_written h hw (atIndex_val p _ _) ?_
      rw [itemReading_port (by decide), portSetting, State.modOutput, upd_get_self]
      rfl
  · subst hitem hindex
    refine takeWrite_written h hw (withinRange_inside hlow hhigh _ fun n =>
      stored { begun s r rest with mirror := toFin 8 n }) ?_
    exact congrArg (fun n => some (beNat 8 n)) (elim_toFin_eight (by omega))
  · rw [writeRole_inUse hon]
    rfl
  · rw [writeRole_inUse hon, if_pos rfl]
    exact modPort_congr (writeRole_record_inUse hon (by decide))
  · rw [writeRole_inUse hon, if_neg (by decide),
      modPort_congr (g := fun y => { y with role := .pyro }) (writeRole_record_inUse hon (by decide))]
    rfl
  · intro u
    rw [writeRole_fromOff hoff,
      modPort_congr (g := fun y =>
        { y with role := m, notice := if y.notice = none ∨ y.notice = some .resume then some .resume else none })
        (writeRole_record_fromOff hoff hm)]
    rfl

end Sys2Proof.Machine
end

section
/-! PROOFS. Writes of the settings of the pool, the uplink and the agent (R12, R14, R17, R166, R167, R177). -/

namespace Sys2Proof.Machine

/-! ## Settings of the pool (R12, R14) -/

/-- The reserve that a reserve's reading gives. -/
theorem itemReading_reserve (p : Fin 8) (s : State) :
    itemReading 7 p.val s = some (beNat 8 (s.ports[p]).reserve) := itemReading_port (by decide) p s

/-- A reserve that would raise the reserves past 1536 blocks. -/
theorem writeReserve_overSum {p : Fin 8} {v : Int} {s : State}
    (h : 1536 < reserveSum (s.modPort p fun x => { x with reserve := clamp 0 255 v })) :
    writeReserve p v s = (.badValue, s) := if_pos h

/-- A reserve that would leave less shared capacity than is in use. -/
theorem writeReserve_inUse {p : Fin 8} {v : Int} {s : State}
    (hsum : reserveSum (s.modPort p fun x => { x with reserve := clamp 0 255 v }) ≤ 1536)
    (huse : 4096 - reserveSum (s.modPort p fun x => { x with reserve := clamp 0 255 v }) <
      sharedUse (s.modPort p fun x => { x with reserve := clamp 0 255 v })) :
    writeReserve p v s = (.inUse, s) :=
  (if_neg (Nat.not_lt.2 hsum)).trans (if_pos huse)

/-- A reserve that is taken. -/
theorem writeReserve_taken {p : Fin 8} {v : Int} {s : State}
    (hsum : reserveSum (s.modPort p fun x => { x with reserve := clamp 0 255 v }) ≤ 1536)
    (huse : sharedUse (s.modPort p fun x => { x with reserve := clamp 0 255 v }) ≤
      4096 - reserveSum (s.modPort p fun x => { x with reserve := clamp 0 255 v })) :
    writeReserve p v s = (.ok, evictionCheck (s.modPort p fun x => { x with reserve := clamp 0 255 v })) :=
  (if_neg (Nat.not_lt.2 hsum)).trans (if_neg (Nat.not_lt.2 huse))

/-- Settles O52: the three cases of a reserve, the two water marks, and the eviction level. -/
theorem poolSettingWritesAreChecked : Obligations.PoolSettingWritesAreChecked := by
  intro s r rest item p value h hw u v reserve t high low
  refine ⟨fun hitem hsum => ?_, fun hitem hsum huse => ?_, fun hitem hsum huse => ?_, fun hitem => ?_,
    fun hitem => ?_, fun hitem hp => ?_⟩ <;> subst hitem
  · exact takeWrite_written h hw ((atIndex_val p _ _).trans (writeReserve_overSum hsum))
      (itemReading_reserve p u)
  · exact takeWrite_written h hw ((atIndex_val p _ _).trans (writeReserve_inUse hsum huse))
      (itemReading_reserve p u)
  · refine takeWrite_written h hw ((atIndex_val p _ _).trans (writeReserve_taken hsum huse)) ?_
    have hkept : ((evictionCheck t).ports[p]).reserve = (t.ports[p]).reserve :=
      reserve_kept (l := [.held, .ports, .counters]) (evictionCheck_only Only.rfl) (by decide) p
    rw [itemReading_reserve]
    exact congrArg (fun n => some (beNat 8 n)) (hkept.trans (congrArg Port.reserve (modPort_port p _ u)))
  · refine takeWrite_written h hw (atIndex_val p _ _) ?_
    rw [itemReading_port (by decide), portSetting]
    exact congrArg (fun n => some (beNat 8 n))
      ((flowControlCheck_settings p _).2.1.trans (congrArg Port.high (modPort_port p _ u)))
  · refine takeWrite_written h hw (atIndex_val p _ _) ?_
    rw [itemReading_port (by decide), portSetting]
    exact congrArg (fun n => some (beNat 8 n))
      ((flowControlCheck_settings p _).2.2.trans (congrArg Port.low (modPort_port p _ u)))
  · subst hp
    exact execWriteConfigItem_written (index := 0) h hw rfl rfl

/-! ## Settings of the uplink and the agent (R17, R166, R167, R177) -/

/-- A station address that is refused. -/
theorem writeStation_refused {value : List Byte} {s : State}
    (h : ¬ natAt value 0 2 = 0 ∨ (BitVec.ofNat 48 (natAt value 2 6)).getLsbD 40 = true ∨
      BitVec.ofNat 48 (natAt value 2 6) = s.upl.recorder) : writeStation value s = (.badValue, s) := by
  by_cases haddress : natAt value 0 2 = 0
  · exact (withAddress_address haddress _ _).trans (if_pos (h.resolve_left fun hn => hn haddress))
  · exact withAddress_other haddress _ _

/-- A station address that is stored. -/
theorem writeStation_stored {value : List Byte} {s : State} (haddress : natAt value 0 2 = 0)
    (hgroup : (BitVec.ofNat 48 (natAt value 2 6)).getLsbD 40 = false)
    (hother : BitVec.ofNat 48 (natAt value 2 6) ≠ s.upl.recorder) :
    writeStation value s =
      (.ok, { s with upl := { s.upl with station := BitVec.ofNat 48 (natAt value 2 6) } }) := by
  refine (withAddress_address haddress _ _).trans (if_neg ?_)
  rw [groupAddress, hgroup]
  simp [hother]

/-- A recorder address that is refused. -/
theorem writeRecorder_refused {value : List Byte} {s : State}
    (h : ¬ natAt value 0 2 = 0 ∨ BitVec.ofNat 48 (natAt value 2 6) = s.upl.station) :
    writeRecorder value s = (.badValue, s) := by
  by_cases haddress : natAt value 0 2 = 0
  · exact (withAddress_address haddress _ _).trans (if_pos (h.resolve_left fun hn => hn haddress))
  · exact withAddress_other haddress _ _

/-- A recorder address that is stored. -/
theorem writeRecorder_stored {value : List Byte} {s : State} (haddress : natAt value 0 2 = 0)
    (hother : BitVec.ofNat 48 (natAt value 2 6) ≠ s.upl.station) :
    writeRecorder value s =
      (.ok, { s with upl := { s.upl with recorder := BitVec.ofNat 48 (natAt value 2 6) } }) :=
  (withAddress_address haddress _ _).trans (if_neg hother)

/-- A fixed address that is refused. -/
theorem writeFixed_refused {value : List Byte} {s : State}
    (h : natAt value 0 2 ≠ 0 ∨ (BitVec.ofNat 48 (natAt value 2 6)).getLsbD 40 = true ∨
      BitVec.ofNat 48 (natAt value 2 6) = 0) : writeFixed value s = (.badValue, s) := by
  by_cases haddress : natAt value 0 2 = 0
  · exact (withAddress_address haddress _ _).trans (if_pos (h.resolve_left fun hn => hn haddress))
  · exact withAddress_other haddress _ _

/-- A fixed address that is stored. -/
theorem writeFixed_stored {value : List Byte} {s : State} (haddress : natAt value 0 2 = 0)
    (hgroup : (BitVec.ofNat 48 (natAt value 2 6)).getLsbD 40 = false)
    (hzero : BitVec.ofNat 48 (natAt value 2 6) ≠ 0) :
    writeFixed value s =
      (.ok, { s with mga := { s.mga with
        fixed := BitVec.ofNat 48 (natAt value 2 6)
        bound := if s.mga.mode = .fixed then some (BitVec.ofNat 48 (natAt value 2 6)) else s.mga.bound } }) := by
  refine (withAddress_address haddress _ _).trans (if_neg ?_)
  rw [groupAddress, hgroup]
  rintro (hfalse | hvanishes)
  · exact Bool.false_ne_true hfalse
  · exact hzero hvanishes

/-- A binding mode written by its code. -/
theorem withCode_binding {v : Int} {m : BindingMode} (hv : v = positionIn bindingList m) (source : Address)
    (s : State) : withCode bindingList v s (fun m => writeBinding source m s) = writeBinding source m s :=
  withCode_of (mem_bindingList m) hv _ _

/-- Settles O53: each item's rule, and the reading of what is then held. -/
theorem uplinkAndAgentSettingWritesAreChecked : Obligations.UplinkAndAgentSettingWritesAreChecked := by
  refine ⟨fun s r rest item value h hw => ?_, fun s r rest value h hw haddress => ?_,
    fun s r rest item value h hw => ?_⟩
  · intro u a isAddress held
    refine ⟨fun hitem hbad => ?_, fun hitem haddress hgroup hother => ?_, fun hitem hbad => ?_,
      fun hitem haddress hother => ?_, fun hitem hbad => ?_, fun hitem hlow hhigh => ?_⟩ <;> subst hitem
    · exact takeWrite_written h hw (writeStation_refused hbad) rfl
    · exact takeWrite_written h hw (writeStation_stored haddress hgroup hother) rfl
    · exact takeWrite_written h hw (writeRecorder_refused hbad) rfl
    · exact takeWrite_written h hw (writeRecorder_stored haddress hother) rfl
    · exact takeWrite_written h hw (withinRange_outside hbad _ fun n =>
        stored { u with upl := { u.upl with frameType := BitVec.ofNat 16 n } }) rfl
    · refine takeWrite_written h hw (withinRange_inside hlow hhigh _ fun n =>
        stored { u with upl := { u.upl with frameType := BitVec.ofNat 16 n } }) ?_
      have hvalue : (BitVec.ofNat 16 (readInt value).toNat).toNat = (readInt value).toNat := by
        rw [BitVec.toNat_ofNat]
        omega
      exact congrArg (fun n => some (beNat 8 n)) hvalue
  · refine execWriteConfigItem_written h hw (withAddress_address haddress _ fun a =>
      stored { begun s r rest with upl := { (begun s r rest).upl with report := a } }) ?_
    have hvalue : (BitVec.ofNat 48 (natAt value 2 6)).toNat = natAt value 2 6 :=
      ((ofNat_natAt_six value 2 _).1 rfl).symm
    exact congrArg (fun n => some (beNat 8 n)) hvalue
  · intro u v a
    refine ⟨fun m hitem hv => ?_, fun hitem hv => ?_, fun hitem hv => ?_, fun hitem hv hfixed => ?_,
      fun hitem hv hfixed => ?_, fun hitem hbad => ?_, fun hitem haddress hgroup hzero => ?_⟩ <;> subst hitem
    · refine takeWrite_written h hw (withCode_of (mem_schedList m) hv _ _) ?_
      rw [hv]
      rfl
    · exact takeWrite_written h hw (withCode_binding (m := .openMode) hv _ _) rfl
    · exact takeWrite_written h hw (withCode_binding (m := .first) hv _ _) rfl
    · exact takeWrite_written h hw ((withCode_binding (m := .fixed) hv _ _).trans
        (if_neg fun hrefused => hfixed hrefused.2)) rfl
    · exact takeWrite_written h hw ((withCode_binding (m := .fixed) hv _ _).trans
        (if_pos ⟨rfl, hfixed⟩)) rfl
    · exact takeWrite_written h hw (writeFixed_refused hbad) rfl
    · exact takeWrite_written h hw (writeFixed_stored haddress hgroup hzero) rfl

end Sys2Proof.Machine
end

section
/-! SUPPORT. The requests SET_CONFIG and GET_CONFIG (R175): their entries in bytes, the row that takes them, and the
status they are answered with. -/

namespace Sys2Proof.Machine

/-! ## Entries in bytes (11.3) -/

/-- The parts of a request, each of n bytes, after the first i. -/
theorem drop_flatten {α : Type} {l : List α} {f : α → List Byte} {n : Nat} (hn : ∀ x ∈ l, (f x).length = n)
    (i : Nat) : ((l.map f).flatten).drop (n * i) = ((l.drop i).map f).flatten := by
  induction i generalizing l with
  | zero => simp
  | succ i ih =>
    cases l with
    | nil => simp
    | cons x l =>
      have hx := hn x (List.mem_cons_self ..)
      rw [List.map_cons, List.flatten_cons, Nat.mul_succ, Nat.add_comm, ← List.drop_drop,
        List.drop_append_of_le_length (Nat.le_of_eq hx.symm), List.drop_of_length_le (Nat.le_of_eq hx),
        List.nil_append, ih fun y hy => hn y (List.mem_cons_of_mem x hy), List.drop_succ_cons]

/-- The length of parts of n bytes each. -/
theorem length_flatten {α : Type} {l : List α} {f : α → List Byte} {n : Nat}
    (hn : ∀ x ∈ l, (f x).length = n) :
    ((l.map f).flatten).length = n * l.length := by
  induction l with
  | nil => rfl
  | cons x l ih =>
    rw [List.map_cons, List.flatten_cons, List.length_append, hn x (List.mem_cons_self ..),
      ih fun y hy => hn y (List.mem_cons_of_mem x hy), List.length_cons, Nat.mul_succ, Nat.add_comm]

/-- A field counted from an offset. -/
theorem field_drop (bs : List Byte) (offset i k : Nat) : field bs (offset + i) k = field (bs.drop offset) i k := by
  rw [field, field, List.drop_drop]

/-- A number counted from an offset. -/
theorem natAt_drop (bs : List Byte) (offset i k : Nat) : natAt bs (offset + i) k = natAt (bs.drop offset) i k :=
  congrArg readNat (field_drop bs offset i k)

/-- A request cut into parts of n bytes is read part by part: g reads part i at its offset. -/
theorem map_range_parts {α β : Type} {l : List α} {f : α → List Byte} {n : Nat}
    (hn : ∀ x ∈ l, (f x).length = n) {g : List Byte → β} {r : α → β}
    (hg : ∀ x ∈ l, ∀ rest, g (f x ++ rest) = r x) :
    ((List.range l.length).map fun i => g (((l.map f).flatten).drop (n * i))) = l.map r := by
  refine List.ext_getElem (by simp) fun i hi hi' => ?_
  have hlt : i < l.length := by simpa using hi
  rw [List.getElem_map, List.getElem_range, List.getElem_map, drop_flatten hn, List.drop_eq_getElem_cons hlt,
    List.map_cons, List.flatten_cons]
  exact hg _ (List.getElem_mem hlt) _

/-- The bytes of an entry (R175). -/
def settingBytes (e : ConfigEntry) : List Byte := beNat 2 e.item ++ beNat 1 e.index ++ e.value

/-- The entry that bytes begin with (R175). -/
def readSetting (bs : List Byte) : ConfigEntry :=
  { item := natAt bs 0 2, index := natAt bs 2 1, value := field bs 3 8 }

/-- The entries of a SET_CONFIG request, each read from its own bytes. -/
theorem configEntries_eq (args : List Byte) :
    configEntries args = (List.range (args.length / 11)).map fun i => readSetting (args.drop (11 * i)) :=
  List.map_congr_left fun i _ => by
    simp only [readSetting, ← natAt_drop, ← field_drop, Nat.add_zero]

/-- An entry is read back as it was laid out. -/
theorem readSetting_append {e : ConfigEntry} (hitem : e.item < 65536) (hindex : e.index < 256)
    (hvalue : e.value.length = 8) (rest : List Byte) : readSetting (settingBytes e ++ rest) = e := by
  simp only [readSetting, settingBytes, List.append_assoc, natAt_beNat_two _ hitem, natAt_beNat_one _ _ hindex]
  simp [field, beNat, ← hvalue]

/-- The entries of a SET_CONFIG request are read back as they were laid out. -/
theorem configEntries_flatten {entries : List ConfigEntry}
    (h : ∀ e ∈ entries, e.item < 65536 ∧ e.index < 256 ∧ e.value.length = 8) :
    configEntries (entries.map settingBytes).flatten = entries := by
  have hn : ∀ e ∈ entries, (settingBytes e).length = 11 := fun e he => by
    obtain ⟨-, -, hvalue⟩ := h e he
    simp [settingBytes, hvalue]
  rw [configEntries_eq, length_flatten hn, Nat.mul_div_cancel_left _ (by decide)]
  refine (map_range_parts hn (r := id) fun e he rest => ?_).trans (List.map_id _)
  obtain ⟨hitem, hindex, hvalue⟩ := h e he
  exact readSetting_append hitem hindex hvalue rest

/-- The bytes of a pair (R175). -/
def pairBytes (p : Nat × Nat) : List Byte := beNat 2 p.1 ++ beNat 1 p.2

/-- The pair that bytes begin with (R175). -/
def readPair (bs : List Byte) : Nat × Nat := (natAt bs 0 2, natAt bs 2 1)

/-- The pairs of a GET_CONFIG request, each read from its own bytes. -/
theorem configPairs_eq (args : List Byte) :
    configPairs args = (List.range (args.length / 3)).map fun i => readPair (args.drop (3 * i)) :=
  List.map_congr_left fun i _ => by simp only [readPair, ← natAt_drop, Nat.add_zero]

/-- A pair is two bytes of item and one of index. -/
theorem pairBytes_length (p : Nat × Nat) : (pairBytes p).length = 3 := by simp [pairBytes]

/-- The pairs of a GET_CONFIG request are read back as they were laid out. -/
theorem configPairs_flatten {pairs : List (Nat × Nat)} (h : ∀ p ∈ pairs, p.1 < 65536 ∧ p.2 < 256) :
    configPairs (pairs.map pairBytes).flatten = pairs := by
  have hn : ∀ p ∈ pairs, (pairBytes p).length = 3 := fun p _ => pairBytes_length p
  rw [configPairs_eq, length_flatten hn, Nat.mul_div_cancel_left _ (by decide)]
  refine (map_range_parts hn (r := id) fun p hp rest => ?_).trans (List.map_id _)
  obtain ⟨hitem, hindex⟩ := h p hp
  simp only [readPair, pairBytes, List.append_assoc, natAt_beNat_two _ hitem, natAt_beNat_one _ _ hindex, id]

/-! ## Statuses and results (R175) -/

/-- A request of no entries has no refusal. -/
theorem firstRefusal_nil : firstRefusal [] = .ok := rfl

/-- The first refusal, entry by entry. -/
theorem firstRefusal_cons (st : Status) (rest : List Status) :
    firstRefusal (st :: rest) = if st = .ok then firstRefusal rest else st := by
  by_cases h : st = .ok <;> simp [firstRefusal, h]

/-- The status of a GET_CONFIG request: OK when every pair has a value. -/
theorem firstRefusal_pairs (s : State) (pairs : List (Nat × Nat)) :
    firstRefusal (pairs.map (pairStatus s)) =
      if pairs.all fun p => (itemReading p.1 p.2 s).isSome then .ok else .badValue := by
  induction pairs with
  | nil => rfl
  | cons p pairs ih =>
    rw [List.map_cons, firstRefusal_cons, ih, pairStatus, List.all_cons]
    cases (itemReading p.1 p.2 s).isSome <;> rfl

/-- The result of a pair with a value. -/
theorem entryResult_some {p : Nat × Nat} {s : State} {value : List Byte}
    (h : itemReading p.1 p.2 s = some value) :
    entryResult p.1 p.2 (pairStatus s p) s = beNat 2 p.1 ++ beNat 1 p.2 ++ 0 :: value := by
  simp [entryResult, pairStatus, h, byteOf, Status.code]

/-- The result of a pair without a value. -/
theorem entryResult_none {p : Nat × Nat} {s : State} (h : itemReading p.1 p.2 s = none) :
    entryResult p.1 p.2 (pairStatus s p) s = beNat 2 p.1 ++ beNat 1 p.2 ++ 3 :: beNat 8 0 := by
  simp [entryResult, pairStatus, h, byteOf, Status.code]

/-! ## The rows that take the requests (log 6) -/

/-- A SET_CONFIG request of a size that 11.3 allows. -/
theorem soundSetConfig_of_size {r : Request} (hcommand : r.command = 2)
    (hsize : sizeSound 2 r.args.length = true) : soundSetConfig r = true := by
  have hparts : r.args.length % 11 = 0 ∧ 11 ≤ r.args.length ∧ r.args.length ≤ 88 := by
    simpa [sizeSound, and_assoc] using hsize
  obtain ⟨hwhole, hlow, hhigh⟩ := hparts
  simp only [soundSetConfig, isCommand, hcommand, sizeOfParts, Bool.and_eq_true, beq_iff_eq, decide_eq_true_eq]
  exact ⟨trivial, ⟨hwhole, by omega⟩, by omega⟩

/-- The response of a sound SET_CONFIG request that is taken. -/
def configAnswer (s : State) (r : Request) (rest : List Request) : State :=
  answered r (setConfig r (begun s r rest)).1.status (setConfig r (begun s r rest)).1.data
    (setConfig r (begun s r rest)).2

/-- A row that selects a ready, sound SET_CONFIG request answers it. -/
theorem takeRequest_setConfig {s : State} {r : Request} {rest : List Request} (h : Ready s r rest)
    (hsound : soundSetConfig r = true) {selects : Request → Bool} (hs : selects r = true) :
    takeRequest selects (sizeOfParts 11 1 8) setConfig s = configAnswer s r rest := by
  obtain ⟨-, hsize⟩ := Bool.and_eq_true_iff.1 hsound
  rw [takeRequest_ready h hs, if_pos hsize]
  rfl

/-- The row of the first entry's item takes a SET_CONFIG request. -/
theorem takeWrite_sound {s : State} {r : Request} {rest : List Request} (h : Ready s r rest)
    (hsound : soundSetConfig r = true) {items : List Nat} (hi : items.contains (firstItem r) = true) :
    Host.Outcome.next (takeWrite items s) =
      (.next (configAnswer s r rest) : Host.Outcome State Fault Refusal) :=
  congrArg _ (takeRequest_setConfig h hsound (by rw [hsound, hi]; rfl))

/-- WRITE_CONFIG_ITEM takes a SET_CONFIG request whose first item has no row of its own. -/
theorem execWriteConfigItem_sound {s : State} {r : Request} {rest : List Request} (h : Ready s r rest)
    (hsound : soundSetConfig r = true) (hi : itemsWithRow.contains (firstItem r) = false) :
    exec .writeConfigItem s = .next (configAnswer s r rest) :=
  congrArg _ (takeRequest_setConfig h hsound (by
    obtain ⟨hcommand, -⟩ := Bool.and_eq_true_iff.1 hsound
    rw [hsound, hi, hcommand]
    rfl))

/-- A SET_CONFIG request is taken by the row it is taken as. -/
theorem exec_writeRow {s : State} {r : Request} {rest : List Request} (h : Ready s r rest)
    (hsound : soundSetConfig r = true) : exec (writeRow r) s = .next (configAnswer s r rest) := by
  rw [writeRow, if_pos hsound]
  split
  case h_19 =>
    refine execWriteConfigItem_sound h hsound ?_
    simp_all [itemsWithRow]
  all_goals
    rename_i hitem
    exact takeWrite_sound h hsound (by rw [hitem]; decide)

end Sys2Proof.Machine
end

section
/-! PROOFS. The answers to SET_CONFIG and GET_CONFIG (R175), and what each item reads as (11.4, R36, R67, R92,
R129). -/

namespace Sys2Proof.Machine

/-! ## Items without a value (11.4) -/

/-- The number of indices that an item has (11.4). -/
def instancesOf (item : Nat) : Nat :=
  if 1 ≤ item ∧ item ≤ 10 ∨ item = 66 then 8 else if item = 28 ∨ item = 36 ∨ item = 67 then 4
  else if item = 39 then 2 else 1

/-- An index that names none. -/
theorem toFin_none {n i : Nat} (h : n ≤ i) : toFin n i = none := dif_neg (Nat.not_lt.2 h)

/-- No setting of a port has number 0. -/
theorem portSetting_zero (p : Fin 8) (s : State) : portSetting 0 p s = none := rfl

/-- No setting of the part has a number above 39. -/
theorem partSetting_unknown {item : Nat} (h : 39 < item) (s : State) : partSetting item s = none := by
  unfold partSetting
  split
  case h_27 => rfl
  all_goals omega

/-- No read-only item has a number above 71. -/
theorem runningReading_unknown {item : Nat} (h : 71 < item) (index : Nat) (s : State) :
    runningReading item index s = none := by
  unfold runningReading
  split
  case h_9 => rfl
  all_goals omega

/-- No setting has number 0. -/
theorem settingValue_zero (index : Nat) (s : State) : settingValue 0 index s = none := by
  rw [settingValue, if_pos (by decide)]
  cases toFin 8 index <;> rfl

/-- No setting has a number above 39. -/
theorem settingValue_unknown {item : Nat} (h : 39 < item) (index : Nat) (s : State) :
    settingValue item index s = none := by
  rw [settingValue, if_neg (by omega), if_neg (by omega), if_neg (by omega), if_neg (by omega),
    partSetting_unknown h, ite_self]

/-- Every item has an index. -/
theorem instancesOf_pos (item : Nat) : 1 ≤ instancesOf item := by
  unfold instancesOf
  split
  · decide
  · split
    · decide
    · split
      · decide
      · decide

/-- A setting has no value at an index beyond its range. -/
theorem settingValue_beyond {item index : Nat} (hlow : 1 ≤ item) (h : instancesOf item ≤ index) (s : State) :
    settingValue item index s = none := by
  by_cases hport : item ≤ 10
  · have hindex : 8 ≤ index := by rwa [instancesOf, if_pos (.inl ⟨hlow, hport⟩)] at h
    rw [settingValue, if_pos hport, toFin_none hindex]
    rfl
  · rw [settingValue, if_neg hport]
    split
    case isTrue hline =>
      subst hline
      rw [toFin_none (show 4 ≤ index from h)]
      rfl
    case isFalse =>
      split
      case isTrue hquota =>
        subst hquota
        rw [toFin_none (show 4 ≤ index from h)]
        rfl
      case isFalse =>
        split
        case isTrue hfilter =>
          subst hfilter
          rw [toFin_none (show 2 ≤ index from h)]
          rfl
        case isFalse =>
          exact if_neg (Nat.pos_iff_ne_zero.1 (Nat.le_trans (instancesOf_pos item) h))

/-- A read-only item has no value at an index beyond its range. -/
theorem runningReading_beyond {item index : Nat} (h : instancesOf item ≤ index) (s : State) :
    runningReading item index s = none := by
  unfold runningReading
  split
  case h_3 => rw [toFin_none (show 8 ≤ index from h)]; rfl
  case h_4 => rw [toFin_none (show 4 ≤ index from h)]; rfl
  case h_9 => rfl
  all_goals exact if_neg (Nat.pos_iff_ne_zero.1 (show 1 ≤ index from h))

/-- An unknown item, and a known one at an index beyond its range, reads none. -/
theorem itemReading_none {item index : Nat}
    (h : item = 0 ∨ (39 < item ∧ item < 64) ∨ 71 < item ∨ instancesOf item ≤ index) (s : State) :
    itemReading item index s = none := by
  by_cases hsetting : item < 64
  · have hnone : settingValue item index s = none := by
      rcases h with rfl | ⟨hlow, -⟩ | hhigh | hbeyond
      · exact settingValue_zero index s
      · exact settingValue_unknown hlow index s
      · omega
      · rcases Nat.eq_zero_or_pos item with rfl | hpos
        · exact settingValue_zero index s
        · exact settingValue_beyond hpos hbeyond s
    rw [itemReading, if_pos hsetting, hnone]
    rfl
  · rw [itemReading, if_neg hsetting]
    rcases h with rfl | ⟨-, hhigh⟩ | hhigh | hbeyond
    · omega
    · omega
    · exact runningReading_unknown hhigh index s
    · exact runningReading_beyond hbeyond s

/-! ## Fields of readings (R173, R174) -/

/-- A part that may be absent, by its presence. -/
theorem optional_eq_elim {α : Type} (f : α → List Byte) (x : Option α) :
    optional f x = x.elim [0] fun y => 1 :: f y := by
  cases x <;> rfl

/-- What is made of the entries of a vector, in the order of their indices. -/
theorem map_toList {α β : Type} {n : Nat} (v : Vector α n) (f : α → β) :
    v.toList.map f = (List.finRange n).map fun i => f v[i] := by
  refine List.ext_getElem (by simp) fun i hi hi' => ?_
  simp

/-! ## Running state (R36, R67, R92, R129) -/

/-- The age of a reading of a whole number of ms. -/
theorem ageInMs_whole {age : Nat} (h : age % 1000 = 0) : ageInMs age = min 65535 (age / 1000) := by
  simp [ageInMs, h]

/-- An age is given as the ms below, or as the next one (log 12). -/
theorem ageInMs_cases (age : Nat) :
    ∃ up : Nat, up ≤ 1 ∧ (age % 1000 = 0 → up = 0) ∧ ageInMs age = min 65535 (age / 1000 + up) := by
  refine ⟨if age % 1000 ≠ 0 ∧ Config.ageRoundsUp age = true then 1 else 0, ?_,
    fun h => if_neg fun hup => hup.1 h, rfl⟩
  split <;> decide

/-- The reading of a strand. -/
theorem itemReading_temp (t : Fin 4) (s : State) : itemReading 67 t.val s = some (padTo 8 (tempReading t s)) := by
  simp only [itemReading, runningReading, toFin_val]
  rfl

/-- The fields of a strand's reading, filled up to the eight bytes of a value. -/
theorem padTo_tempFields (code temp age : Nat) :
    padTo 8 (byteOf code ++ beNat 2 temp ++ beNat 2 age) =
      BitVec.ofNat 8 code :: (beNat 2 temp ++ beNat 2 age ++ List.replicate 3 0) := by
  simp [padTo, byteOf]

/-- The reading of M, S and the latch. -/
theorem itemReading_position (s : State) :
    itemReading 64 0 s =
      some (beNat 6 s.pos.station ++ beInt 5 s.pos.acc ++ [if s.pos.latch then 0 else 1]) := by
  have hlatch : byteOf (flagCode s.pos.latch) = [if s.pos.latch then 0 else 1] := by
    cases s.pos.latch <;> rfl
  rw [← hlatch]
  rfl

/-- The reading of the trigger generator. -/
theorem itemReading_trigger (s : State) :
    itemReading 65 0 s =
      some (beNat 6 s.trg.grid ++ beNat 2 s.trg.seq.toNat ++
        [if s.dlb.service = .inspecting ∧ s.trg.mode ≠ .off then 1 else 0, if s.trg.deferred then 1 else 0]) := by
  have harmed : boolByte (trgArmed s) = if s.dlb.service = .inspecting ∧ s.trg.mode ≠ .off then 1 else 0 := by
    simp [boolByte, trgArmed, inspecting]
  rw [← harmed]
  rfl

/-- The reading of a port's pool state. -/
theorem itemReading_pool (p : Fin 8) (s : State) : itemReading 66 p.val s = some (portReading p s) := by
  simp only [itemReading, runningReading, toFin_val]
  rfl

/-- The reading of a ring: the slots in each cell state, and the empty ones. -/
theorem ringReading_eq (r : Ring) :
    ringReading r =
      beNat 2 (r.countP fun e => decide (e.2.state = .unseen)) ++
        beNat 2 (r.countP fun e => decide (e.2.state = .approach)) ++
        beNat 2 (r.countP fun e => decide (e.2.state = .live)) ++
        beNat 2 (r.countP fun e => decide (e.2.state = .closed)) ++ beNat 2 (4096 - r.length) := by
  simp [ringReading, cellStateList, Config.ringSlots]

/-- A reading that is a number of a port's setting. -/
theorem reads_port {item : Nat} (hitem : item ≤ 10) {p : Fin 8} {s : State} {n : Nat}
    (h : portSetting item p s = some n) : itemReading item p.val s = some (beNat 8 n) := by
  rw [itemReading_port hitem, h]
  rfl

/-- A reading that is a number of the part's setting. -/
theorem reads_part {item : Nat} (hlow : 10 < item) (hhigh : item < 64)
    (hother : item ≠ 28 ∧ item ≠ 36 ∧ item ≠ 39) {s : State} {n : Nat} (h : partSetting item s = some n) :
    itemReading item 0 s = some (beNat 8 n) := by
  rw [itemReading_part hlow hhigh hother, h]
  rfl

/-- The filter time of a line. -/
theorem itemReading_lineTime (l : Fin 4) (s : State) :
    itemReading 28 l.val s = some (beNat 8 (s.emu.lines[l]).time) := by
  simp only [itemReading, settingValue, toFin_val]
  rfl

/-- The quota of a queue. -/
theorem itemReading_quota (q : Fin 4) (s : State) : itemReading 36 q.val s = some (beNat 8 s.egs.quotas[q]) := by
  simp only [itemReading, settingValue, toFin_val]
  rfl

/-- A head filter. -/
theorem itemReading_filter (f : Fin 2) (s : State) :
    itemReading 39 f.val s =
      some (beNat 8 ((if (s.ctb.filters[f]).enabled then 256 else 0) + (s.ctb.filters[f]).head.val)) := by
  have hfilter : ∀ x : HeadFilter, filterSetting x = (if x.enabled then 256 else 0) + x.head.val := fun x => by
    rw [filterSetting]
    cases x.enabled <;> rfl
  rw [← hfilter]
  simp only [itemReading, settingValue, toFin_val]
  rfl

/-- What GET_CONFIG executes on the pairs of its request. -/
theorem getConfig_pairs {r : Request} {pairs : List (Nat × Nat)} (h : configPairs r.args = pairs) (s : State) :
    getConfig r s =
      ({ status := if pairs.all fun p => (itemReading p.1 p.2 s).isSome then .ok else .badValue
         data := counted (fun p => entryResult p.1 p.2 (pairStatus s p) s) pairs }, s) := by
  rw [← firstRefusal_pairs, ← h]
  rfl

/-- A ready GET_CONFIG request of 1 to 8 pairs is answered with the result of each. -/
theorem exec_getConfig_pairs {s : State} {r : Request} {rest : List Request} {pairs : List (Nat × Nat)}
    (h : Ready s r rest) (hcommand : r.command = 3) (hone : 1 ≤ pairs.length) (height : pairs.length ≤ 8)
    (hpairs : ∀ p ∈ pairs, p.1 < 65536 ∧ p.2 < 256) (hargs : r.args = (pairs.map pairBytes).flatten) :
    exec .getConfig s = .next (answered r
      (if pairs.all fun p => (itemReading p.1 p.2 (begun s r rest)).isSome then .ok else .badValue)
      (counted (fun p => entryResult p.1 p.2 (pairStatus (begun s r rest) p) (begun s r rest)) pairs)
      (begun s r rest)) := by
  have hlength : r.args.length = 3 * pairs.length := by
    rw [hargs]
    exact length_flatten fun p _ => pairBytes_length p
  have hentries : configPairs r.args = pairs := by
    rw [hargs]
    exact configPairs_flatten hpairs
  have hsize : sizeOfParts 3 1 8 r.args.length = true := by
    simp [sizeOfParts, hlength, hone, height]
  have hselect : isCommand 3 r = true := by rw [isCommand, hcommand]; rfl
  refine congrArg Host.Outcome.next ((takeRequest_ready h hselect _ _).trans ((if_pos hsize).trans ?_))
  rw [getConfig_pairs hentries]

/-- Settles O50: the rows that answer, the layout of entries and results, and the reading of every item. -/
theorem configRequestsAreAnsweredEntryByEntry : Obligations.ConfigRequestsAreAnsweredEntryByEntry := by
  refine ⟨?_, ?_, ?_, ⟨?_, ?_, firstRefusal_nil, firstRefusal_cons⟩, ?_, ?_⟩
  · intro s r rest h hcommand hsize u done
    have hrow : rowOf r = writeRow r := by rw [rowOf, hcommand]; rfl
    rw [hrow, exec_writeRow h (soundSetConfig_of_size hcommand hsize), configAnswer]
    simp only [setConfig, counted, List.map_id]
    rfl
  · intro s r rest pairs h hcommand hone height hpairs hargs u
    have hresults : ∀ p : Nat × Nat, entryResult p.1 p.2 (pairStatus u p) u =
        beNat 2 p.1 ++ beNat 1 p.2 ++
          (match itemReading p.1 p.2 u with
           | some v => 0 :: v
           | none => 3 :: beNat 8 0) := fun p => by
      cases hread : itemReading p.1 p.2 u with
      | none => exact entryResult_none hread
      | some v => exact entryResult_some hread
    rw [exec_getConfig_pairs h hcommand hone height hpairs hargs, counted, funext hresults]
    rfl
  · intro s
    refine ⟨itemReading_position s, itemReading_trigger s, rfl, fun t hnone => ?_,
      fun t temp taken e hfresh hwhole => ?_⟩
    · rw [itemReading_temp, tempReading, hnone]
      rfl
    · rw [itemReading_temp, tempReading, hfresh]
      dsimp only
      rw [padTo_tempFields, ageInMs_whole hwhole]
      rfl
  · exact fun entries hentries => configEntries_flatten hentries
  · intro source acc e w next
    refine ⟨rfl, rfl, ?_⟩
    rw [← beNat_zero]
    rfl
  · intro s reads
    refine ⟨beNat_eq_map, fun _ _ => rfl, fun p => ⟨?_, ?_, reads_port (by decide) rfl, ?_, ?_,
      reads_port (by decide) rfl, reads_port (by decide) rfl, reads_port (by decide) rfl,
      reads_port (by decide) rfl, reads_port (by decide) rfl⟩,
      ⟨?_, rfl, rfl, rfl, rfl, rfl, ?_, rfl, rfl, ?_, rfl, rfl, rfl, rfl, rfl, rfl, rfl, rfl, ?_, rfl, rfl, rfl, rfl,
        ?_, ?_, rfl⟩,
      fun l => ⟨itemReading_lineTime l s, itemReading_quota l s⟩, fun f => itemReading_filter f s,
      fun item index h => itemReading_none h s⟩
    · exact reads_port (by decide) (congrArg some (by cases (s.ports[p]).role <;> rfl))
    · exact reads_port (by decide) (congrArg some (by cases (s.ports[p]).admission <;> rfl))
    · exact reads_port (by decide) (congrArg some (by cases (s.ports[p]).nonScan <;> rfl))
    · exact reads_port (by decide) (congrArg some (by cases (s.ports[p]).forwardMode <;> rfl))
    · exact reads_part (by decide) (by decide) (by decide) (congrArg some (by cases s.mirror <;> rfl))
    · exact reads_part (by decide) (by decide) (by decide) (congrArg some (by cases s.pos.sense <;> rfl))
    · exact reads_part (by decide) (by decide) (by decide) (congrArg some (by cases s.trg.mode <;> rfl))
    · exact reads_part (by decide) (by decide) (by decide) (congrArg some (by cases s.emu.proofEnable <;> rfl))
    · exact reads_part (by decide) (by decide) (by decide) (congrArg some (by cases s.egs.mode <;> rfl))
    · exact reads_part (by decide) (by decide) (by decide) (congrArg some (by cases s.mga.mode <;> rfl))
  · intro s perhaps address
    have hperhaps : ∀ x : Option Nat, optional byteOf x = perhaps x := optional_eq_elim byteOf
    have haddress : ∀ x : Option Address, optional addrBytes x = address x := optional_eq_elim addrBytes
    refine ⟨fun p => ?_, fun t temp taken code hread => ?_, ?_, fun hnone => ?_, fun g hg => ?_, ?_⟩
    · have hhold : codeByte holdList (s.ports[p]).hold = [if (s.ports[p]).hold = .flowing then 0 else 1] := by
        cases (s.ports[p]).hold <;> rfl
      rw [itemReading_pool, portReading]
      dsimp only
      rw [hhold, haddress]
      cases (s.ports[p]).notice with
      | none => rfl
      | some n => cases n <;> rfl
    · obtain ⟨up, hup, hwhole, hage⟩ := ageInMs_cases (s.now - taken)
      refine ⟨up, hup, hwhole, ?_⟩
      rw [itemReading_temp, tempReading]
      rcases hread with ⟨e, hfresh, rfl⟩ | ⟨hstale, rfl⟩
      · rw [hfresh]
        dsimp only
        rw [padTo_tempFields, hage]
        rfl
      · rw [hstale]
        dsimp only
        rw [padTo_tempFields, hage]
        rfl
    · intro state numberOf part target service w
      have hservice : codeByte serviceList s.dlb.service = [service] := by
        simp only [service]
        cases s.dlb.service <;> rfl
      have hserving : optional (fun k => byteOf k.val) (servingSlot s) = perhaps (numberOf .inService) := by
        change _ = perhaps ((servingSlot s).map Fin.val)
        cases servingSlot s <;> rfl
      have hstaged : optional (fun k => byteOf k.val) (stagedSlot s) = perhaps (numberOf .staged) := by
        change _ = perhaps ((stagedSlot s).map Fin.val)
        cases stagedSlot s <;> rfl
      have hstate : ∀ d : DieState, codeByte dieStateList d = [state d] := fun d => by cases d <;> rfl
      have hslot : ∀ d : DieSlot, slotReading d = state d.state :: perhaps d.faultNumber := fun d => by
        rw [slotReading, hstate, hperhaps]
        rfl
      have hslots := map_toList s.dlb.slots slotReading
      simp only [hslot] at hslots
      have htarget : ∀ x : Target, x.bytes = target x := fun x => by
        cases x with
        | heads => rfl
        | curve n => rfl
        | die k d => cases d <;> rfl
      have hwindow : w.bytes =
          optional (fun x => target x ++ beNat 1 w.pointer ++ beNat 1 w.last ++ beNat 2 w.overrun) w.target := by
        rw [← funext htarget]
        rfl
      refine congrArg some ?_
      rw [libraryReading, hservice, hserving, hstaged, hslots, hwindow]
      cases w.target <;> simp [optional]
    · refine congrArg some ?_
      rw [mapReading, hnone]
    · intro a v m cell
      refine congrArg some ?_
      rw [mapReading, hg]
      dsimp only
      rw [map_toList, funext ringReading_eq]
      rfl
    · have hpadded : itemReading 71 0 s = some (padTo 8 (bindingReading s)) := rfl
      rw [hpadded, bindingReading, haddress]
      cases s.mga.mode <;> rfl

end Sys2Proof.Machine
end

section
/-! PROOFS. Bands and cold values (R72, R73, R102, R103): rounding, interpolation in a curve, the cold equivalent,
and the result of a gauge with a hot value. -/

namespace Sys2Proof.Machine

/-! ## Rounding (1.7) -/

/-- Rounding is symmetric about zero. -/
theorem roundedDiv_neg (n : Int) (d : Nat) : roundedDiv (-n) d = -roundedDiv n d := by
  unfold roundedDiv
  rcases Int.lt_trichotomy n 0 with hneg | rfl | hpos
  · rw [if_pos (by omega), if_neg (by omega), Int.neg_neg]
  · have hhalf : ((d : Int) / (2 * d)) = 0 := by
      rcases Nat.eq_zero_or_pos d with rfl | hd
      · rfl
      · exact Int.ediv_eq_zero_of_lt (by omega) (by omega)
    simp [hhalf]
  · rw [if_neg (by omega), if_pos (by omega), Int.neg_neg]

/-- What lies between 0 and m times the divisor rounds to a number between 0 and m. -/
theorem roundedDiv_bounds {n m : Int} {d : Nat} (hd : 0 < d) (hlow : 0 ≤ n) (hhigh : n ≤ m * d) :
    0 ≤ roundedDiv n d ∧ roundedDiv n d ≤ m := by
  rw [roundedDiv, if_pos hlow]
  refine ⟨Int.ediv_nonneg (by omega) (by omega), Int.le_of_lt_add_one (Int.ediv_lt_of_lt_mul (by omega) ?_)⟩
  calc 2 * n + d ≤ 2 * (m * d) + d := by omega
    _ < 2 * (m * d) + 2 * d := by omega
    _ = (m + 1) * (2 * d) := by rw [Int.add_mul, Int.one_mul, Int.mul_left_comm]

/-! ## Shrink (R72) -/

/-- An interpolated value lies between its two ends. -/
theorem interpolated_between (low high : Int) {f : Nat} (hf : f ≤ 200) :
    min low high ≤ low + roundedDiv ((high - low) * f) 200 ∧
      low + roundedDiv ((high - low) * f) 200 ≤ max low high := by
  have hstep : ∀ rise : Int, 0 ≤ rise → 0 ≤ roundedDiv (rise * f) 200 ∧ roundedDiv (rise * f) 200 ≤ rise :=
    fun rise hrise => roundedDiv_bounds (by decide) (Int.mul_nonneg hrise (by omega))
      (Int.mul_le_mul_of_nonneg_left (by omega) hrise)
  rcases Int.le_total low high with hle | hle
  · have := hstep (high - low) (by omega)
    omega
  · have := hstep (low - high) (by omega)
    rw [← Int.neg_sub low high, Int.neg_mul, roundedDiv_neg]
    omega

/-- An entry of a copy of a curve. -/
theorem curveEntry_val (copy : Vector Nat 33) (i : Fin 33) : curveEntry copy i.val = copy[i] := by
  have hi : min i.val 32 = i.val := by omega
  simp only [curveEntry, hi]
  rfl

/-- From 640.0 °C on the shrink value is the last entry. -/
theorem shrinkAt_top (copy : Vector Nat 33) {temp : Nat} (h : 6400 ≤ temp) : shrinkAt copy temp = copy[32] := by
  rw [shrinkAt, if_pos (by omega)]
  rfl

/-- Below 640.0 °C the shrink value is interpolated between the entries on either side. -/
theorem shrinkAt_between (copy : Vector Nat 33) {temp : Nat} (i : Fin 32) (hi : temp / 200 = i.val) :
    (shrinkAt copy temp : Int) =
      copy[i.castSucc] +
        roundedDiv (((copy[i.succ] : Int) - copy[i.castSucc]) * (temp % 200 : Nat)) 200 := by
  have hlow : curveEntry copy i.val = copy[i.castSucc] := curveEntry_val copy i.castSucc
  have hhigh : curveEntry copy (i.val + 1) = copy[i.succ] := curveEntry_val copy i.succ
  have hrange := (interpolated_between (copy[i.castSucc] : Nat) (copy[i.succ] : Nat)
    (Nat.le_of_lt (Nat.mod_lt temp (by decide : 0 < 200)))).1
  simp only [shrinkAt, hi, hlow, hhigh]
  rw [if_neg (by omega), Int.toNat_of_nonneg (by omega)]

/-- An interpolated shrink value lies between its two entries. -/
theorem shrinkAt_within (copy : Vector Nat 33) {temp : Nat} (i : Fin 32) (hi : temp / 200 = i.val) :
    min copy[i.castSucc] copy[i.succ] ≤ shrinkAt copy temp ∧
      shrinkAt copy temp ≤ max copy[i.castSucc] copy[i.succ] := by
  have hrange := interpolated_between (copy[i.castSucc] : Nat) (copy[i.succ] : Nat)
    (Nat.le_of_lt (Nat.mod_lt temp (by decide : 0 < 200)))
  rw [← shrinkAt_between copy i hi] at hrange
  omega

/-! ## Cold values (R73) -/

/-- The cold equivalent is symmetric about zero. -/
theorem coldEquivalent_neg (h : Int) (s : Nat) : coldEquivalent (-h) s = -coldEquivalent h s := by
  rw [coldEquivalent, coldEquivalent, Int.neg_mul, roundedDiv_neg]
  omega

/-- No hot value, no cold one. -/
theorem coldEquivalent_zero (s : Nat) : coldEquivalent 0 s = 0 := by
  simp [coldEquivalent, roundedDiv]

/-- The cold value of a positive hot value stays positive and grows no larger: a shrink value of at most 8191 takes
less than all of it away. -/
theorem coldEquivalent_pos {h : Int} (hpos : 0 < h) {s : Nat} (hs : s ≤ 8191) :
    0 < coldEquivalent h s ∧ coldEquivalent h s ≤ h := by
  have hlow : 0 ≤ h * s := Int.mul_nonneg (by omega) (by omega)
  have hhigh : h * s ≤ h * 8191 := Int.mul_le_mul_of_nonneg_left (by omega) (by omega)
  rw [coldEquivalent, roundedDiv, if_pos hlow]
  omega

/-- The cold value of a negative hot value, by symmetry. -/
theorem coldEquivalent_of_neg {h : Int} (hneg : h < 0) {s : Nat} (hs : s ≤ 8191) :
    coldEquivalent h s < 0 ∧ h ≤ coldEquivalent h s := by
  have hmirror := coldEquivalent_pos (h := -h) (by omega) hs
  rw [coldEquivalent_neg] at hmirror
  omega

/-- The cold value never exceeds the hot one in magnitude. -/
theorem natAbs_coldEquivalent_le (h : Int) {s : Nat} (hs : s ≤ 8191) :
    (coldEquivalent h s).natAbs ≤ h.natAbs := by
  rcases Int.lt_trichotomy h 0 with hneg | rfl | hpos
  · have := coldEquivalent_of_neg hneg hs
    omega
  · exact Nat.le_of_eq (congrArg Int.natAbs (coldEquivalent_zero s))
  · have := coldEquivalent_pos hpos hs
    omega

/-! ## Gauge results (R102, R103) -/

/-- The result of a gauge with a hot value. -/
theorem gaugeResult_of_hot {die : DieRecord} {slot : Slot} {t : Fin 4} {n : Fin 32} {h : Int}
    (hhot : hotValue die slot t (die.gauges[t])[n] = some h) :
    let d := deviationOf (die.gauges[t])[n] (slot.temps[t]).shrink h
    (gaugeResult die slot t n).deviation = d ∧
      (gaugeResult die slot t n).band = bandOf (die.gauges[t])[n] d := by
  simp only [gaugeResult, hhot, and_self]

/-- Settles O33: the four limits, the interpolation, the cold value by the sign of the hot one, and the gauge. -/
theorem bandsAndColdValuesFollowTheirFormulas : Obligations.BandsAndColdValuesFollowTheirFormulas := by
  refine ⟨fun g d => ⟨fun hreject => if_pos hreject, fun hlo hhi hwarn => ?_, fun hlo hhi hwlo hwhi => ?_,
      fun _ => rfl⟩,
    fun copy temp => ⟨shrinkAt_top copy, fun i hi => ⟨shrinkAt_between copy i hi, shrinkAt_within copy i hi⟩⟩,
    fun h s => ⟨rfl, coldEquivalent_neg h s, fun hs => ⟨natAbs_coldEquivalent_le h hs,
      fun hpos => (coldEquivalent_pos hpos hs).1, fun hneg => (coldEquivalent_of_neg hneg hs).1, ?_⟩⟩,
    fun die slot t n h => ?_⟩
  · rw [bandOf, if_neg (by omega), if_pos hwarn]
  · rw [bandOf, if_neg (by omega), if_neg (by omega)]
  · rintro rfl
    exact coldEquivalent_zero s
  · intro g r hhot
    obtain ⟨hdeviation, hband⟩ := gaugeResult_of_hot hhot
    refine ⟨fun hthermal => ?_, fun hplain => ?_, hband.trans (congrArg _ hdeviation.symm)⟩
    · exact hdeviation.trans (by rw [deviationOf, hthermal]; rfl)
    · exact hdeviation.trans (by rw [deviationOf, hplain]; rfl)

end Sys2Proof.Machine
end

section
/-! PROOFS. Entries of tables as they are written (R57, R68, R75, R174): the judgement of a CURVE, a HEADS and a die
entry, and the codes that a record carries. -/

namespace Sys2Proof.Machine

/-! ## CURVE entries (R68) -/

/-- An entry written to a curve, by whether the in-use copy takes it too. -/
theorem curveWrite_eq (s : State) (i : Fin 33) (v : Nat) :
    Curve.write (!inspecting s) i v = fun c =>
      { pending := c.pending.set i v
        inUse := if s.dlb.service = .inspecting then c.inUse else c.inUse.set i v
        written := c.written ||| (1#33 <<< i.val) } := by
  funext c
  by_cases hs : s.dlb.service = .inspecting <;> simp [Curve.write, inspecting, hs, upd]

/-! ## HEADS entries (R57) -/

/-- The calibration fields that R57 accepts: offsets within ±1 000 000 and a rotation close to scale 1.0. -/
theorem headFits_iff (f : HeadFields) :
    (offsetFits f.x0 && offsetFits f.y0 && rotationFits f.cosine f.sine) = true ↔
      -1000000 ≤ f.x0 ∧ f.x0 ≤ 1000000 ∧ -1000000 ≤ f.y0 ∧ f.y0 ≤ 1000000 ∧
        -1048576 ≤ f.cosine * f.cosine + f.sine * f.sine - 268435456 ∧
        f.cosine * f.cosine + f.sine * f.sine - 268435456 ≤ 1048576 := by
  simp only [offsetFits, rotationFits, Bool.and_eq_true, decide_eq_true_eq, and_assoc]

/-- An entry of one of the sixteen heads is judged by the checks of R57. -/
theorem writeEntry_heads (h : Fin 16) (bs : List Byte) (s : State) :
    writeEntry .heads h.val bs s = writeHead h bs s := by
  simp only [writeEntry, toFin_val]

/-- The entry of a head that takes part, or that is fenced, is refused. -/
theorem writeHead_inUse {h : Fin 16} {s : State}
    (hbusy : (s.heads[h]).state = .measure ∨ (s.heads[h]).state = .fenced) (bs : List Byte) :
    writeHead h bs s = .refused .inUse := if_pos hbusy

/-- The entry of a head that takes no part is refused when it names no strand. -/
theorem writeHead_noStrand {h : Fin 16} {s : State} {bs : List Byte}
    (hidle : ¬ ((s.heads[h]).state = .measure ∨ (s.heads[h]).state = .fenced))
    (hstrand : 4 ≤ (headFields bs).strand) : writeHead h bs s = .refused .badValue := by
  simp only [writeHead, if_neg hidle, toFin_none hstrand]

/-- The entry of a head that takes no part and that names a strand is stored just when its fields fit. -/
theorem writeHead_idle {h : Fin 16} {s : State} {bs : List Byte} {t : Fin 4}
    (hidle : ¬ ((s.heads[h]).state = .measure ∨ (s.heads[h]).state = .fenced))
    (hstrand : (headFields bs).strand = t.val) :
    let f := headFields bs
    writeHead h bs s =
      if offsetFits f.x0 && offsetFits f.y0 && rotationFits f.cosine f.sine then
        .stored false (s.modHead h fun x =>
          { x with
            cal := { strand := t, cosine := f.cosine, sine := f.sine, x0 := f.x0, y0 := f.y0,
                     minQuality := f.minQuality }
            written := true })
      else .refused .badValue := by
  simp only [writeHead, if_neg hidle, hstrand, toFin_val]

/-! ## Codes in records (R75) -/

/-- A byte that carries the number of a curve. -/
theorem codeAt_curveIds {bs : List Byte} {offset : Nat} {n : Fin 4} (h : natAt bs offset 1 = n.val) :
    codeAt curveIds bs offset = some n := by
  simp [codeAt, curveIds, h]

/-- A byte that carries the position of a listed value names it. -/
theorem codeAt_of {α : Type} [DecidableEq α] {l : List α} {x : α} (hx : x ∈ l) {bs : List Byte} {offset : Nat}
    (h : natAt bs offset 1 = positionIn l x) : codeAt l bs offset = some x := by
  have hlt : l.idxOf x < l.length := List.idxOf_lt_length_iff.2 hx
  rw [codeAt, h, positionIn, List.getElem?_eq_getElem hlt, List.getElem_idxOf]

/-- A byte beyond a listed set names nothing. -/
theorem codeAt_none {α : Type} {l : List α} {bs : List Byte} {offset : Nat} (h : l.length ≤ natAt bs offset 1) :
    codeAt l bs offset = none := List.getElem?_eq_none h

/-- Every consequence is listed. -/
theorem mem_consequenceList (c : Consequence) : c ∈ consequenceList := by cases c <;> decide

/-- Every kind of gauge is listed. -/
theorem mem_kindList (k : GaugeKind) : k ∈ kindList := by cases k <;> decide

/-- Every axis is listed. -/
theorem mem_axisList (a : Axis) : a ∈ axisList := by cases a <;> decide

/-- Every pick is listed. -/
theorem mem_pickList (p : Pick) : p ∈ pickList := by cases p <;> decide

/-- Yes and no are listed. -/
theorem mem_yesNo (b : Bool) : b ∈ yesNo := by cases b <;> decide

/-! ## Die entries (R75) -/

/-- A record without a die entry: a code outside its set. -/
theorem dieEntryOf_none {bs : List Byte} (h : 3 < natAt bs 21 1 ∨ 2 < natAt bs 28 1) : dieEntryOf bs = none := by
  unfold dieEntryOf
  split
  case h_2 => rfl
  case h_1 hcurve hnodata =>
    rcases h with h | h
    · rw [codeAt_none (l := curveIds) h] at hcurve
      cases hcurve
    · rw [codeAt_none (l := consequenceList) h] at hnodata
      cases hnodata

/-- A record without a gauge: a code outside its set. -/
theorem gaugeOf_none {bs : List Byte}
    (h : 1 < natAt bs 0 1 ∨ 1 < natAt bs 1 1 ∨ 1 < natAt bs 2 1 ∨ 2 < natAt bs 4 1 ∨ 2 < natAt bs 6 1 ∨
      2 < natAt bs 27 1 ∨ 1 < natAt bs 28 1) : gaugeOf bs = none := by
  unfold gaugeOf
  split
  case h_2 => rfl
  case h_1 henabled hkind haxis hpickA hpickB hseverity hthermal =>
    rcases h with h | h | h | h | h | h | h
    · rw [codeAt_none (l := yesNo) h] at henabled; cases henabled
    · rw [codeAt_none (l := kindList) h] at hkind; cases hkind
    · rw [codeAt_none (l := axisList) h] at haxis; cases haxis
    · rw [codeAt_none (l := pickList) h] at hpickA; cases hpickA
    · rw [codeAt_none (l := pickList) h] at hpickB; cases hpickB
    · rw [codeAt_none (l := consequenceList) h] at hseverity; cases hseverity
    · rw [codeAt_none (l := yesNo) h] at hthermal; cases hthermal

/-- The three mark windows of a die record, each replaced by that of its own entry. -/
theorem writeEntry_marks {bs : List Byte} {w : MarkWindow} (h : markWindowOf bs = some w) (d : DieRecord) :
    d.writeEntry .marks 0 bs = some ({ d with weld := w }, false) ∧
      d.writeEntry .marks 1 bs = some ({ d with stop := w }, false) ∧
      d.writeEntry .marks 2 bs = some ({ d with start := w }, false) := by
  simp only [DieRecord.writeEntry, h, Option.map_some, and_self]

/-- An entry of a die record that is taken. -/
theorem writeEntry_die_stored {k : Fin 8} {part : DiePart} {i : Nat} {bs : List Byte} {s : State}
    {x : DieRecord} {clamped : Bool}
    (h : (s.dlb.slots[k]).record.writeEntry part i bs = some (x, clamped)) :
    writeEntry (.die k part) i bs s = .stored clamped (s.modDie k fun y => { y with record := x }) := by
  simp only [writeEntry, writeDie, h]

/-- An entry of a die record that is refused. -/
theorem writeEntry_die_refused {k : Fin 8} {part : DiePart} {i : Nat} {bs : List Byte} {s : State}
    (h : (s.dlb.slots[k]).record.writeEntry part i bs = none) :
    writeEntry (.die k part) i bs s = .refused .badValue := by
  simp only [writeEntry, writeDie, h]

/-- The window of a record: a minimum point count of 0 becomes 1. -/
theorem windowOf_minCount (bs : List Byte) :
    max 1 (natAt bs 18 1) = if natAt bs 18 1 = 0 then 1 else natAt bs 18 1 := by
  split <;> omega

/-- Settles O46: the entries of the three tables, each judged by the checks of its own. -/
theorem tableEntriesAreJudgedByTheirTable : Obligations.TableEntriesAreJudgedByTheirTable := by
  refine ⟨fun n i record s => ?_, fun h record s => ?_, fun _ => rfl, fun k bs s => ?_⟩
  · simp only [writeEntry, toFin_val, writeCurve, curveWrite_eq]
  · intro f open' d fits
    have hopen : open' ↔ ¬ ((s.heads[h]).state = .measure ∨ (s.heads[h]).state = .fenced) := by
      simp only [open']
      cases (s.heads[h]).state <;> decide
    rw [writeEntry_heads]
    refine ⟨fun hbusy => writeHead_inUse (Classical.not_not.1 fun hidle => hbusy (hopen.2 hidle)) record,
      fun hidle hbad => ?_, fun t hidle hstrand hfits => ?_⟩
    · by_cases hstrand : f.strand < 4
      · have hunfit : ¬ fits := hbad.resolve_left (by omega)
        exact (writeHead_idle (t := ⟨f.strand, hstrand⟩) (hopen.1 hidle) rfl).trans
          (if_neg fun hfits => hunfit ((headFits_iff f).1 hfits))
      · exact writeHead_noStrand (hopen.1 hidle) (Nat.le_of_not_lt hstrand)
    · exact (writeHead_idle (hopen.1 hidle) hstrand).trans (if_pos ((headFits_iff f).2 hfits))
  · intro d put num int set code pick
    have hcode : ∀ (c : Consequence) (offset : Nat), num offset 1 = code c →
        codeAt consequenceList bs offset = some c := fun c offset h =>
      codeAt_of (mem_consequenceList c) (h.trans (by cases c <;> rfl))
    have hpick : ∀ (p : Pick) (offset : Nat), num offset 1 = pick p → codeAt pickList bs offset = some p :=
      fun p offset h => codeAt_of (mem_pickList p) (h.trans (by cases p <;> rfl))
    have hyes : ∀ (b : Bool) (offset : Nat), num offset 1 = (if b then 1 else 0) →
        codeAt yesNo bs offset = some b := fun b offset h =>
      codeAt_of (mem_yesNo b) (h.trans (by cases b <;> rfl))
    refine ⟨fun curve nodata hcurve hnodata => ?_, fun hbad => ?_, fun t => ?_, fun c hc => ?_,
      fun hbad i => ?_, fun t i => ?_, fun t i => ⟨?_, fun hbad => ?_⟩⟩
    · refine writeEntry_die_stored ?_
      simp only [DieRecord.writeEntry, dieEntryOf, codeAt_curveIds hcurve, hcode nodata 28 hnodata, Option.map_some]
      rfl
    · refine writeEntry_die_refused ?_
      simp only [DieRecord.writeEntry, dieEntryOf_none hbad, Option.map_none]
    · refine writeEntry_die_stored ?_
      simp only [DieRecord.writeEntry, toFin_val, Option.map_some]
      rfl
    · intro w
      have hw : markWindowOf bs = some w := by
        simp only [markWindowOf, hcode c 8 hc, Option.map_some]
        rfl
      obtain ⟨hweld, hstop, hstart⟩ := writeEntry_marks hw d
      exact ⟨writeEntry_die_stored hweld, writeEntry_die_stored hstop, writeEntry_die_stored hstart⟩
    · refine writeEntry_die_refused ?_
      have hcodes : codeAt consequenceList bs 8 = none := codeAt_none hbad
      simp only [DieRecord.writeEntry, markWindowOf, hcodes, Option.map_none]
    · intro count
      refine writeEntry_die_stored ?_
      simp only [DieRecord.writeEntry, toFin_val, Option.map_some, windowOf, windowOf_minCount]
      rfl
    · intro enabled thermal kind axis pickA pickB severity henabled hkindCode haxisCode hpickA hpickB
        hseverity hthermal
      have hkind : codeAt kindList bs 1 = some kind :=
        codeAt_of (mem_kindList kind) (hkindCode.trans (by cases kind <;> rfl))
      have haxis : codeAt axisList bs 2 = some axis :=
        codeAt_of (mem_axisList axis) (haxisCode.trans (by cases axis <;> rfl))
      refine writeEntry_die_stored ?_
      simp only [DieRecord.writeEntry, gaugeOf, hyes enabled 0 henabled, hkind, haxis, hpick pickA 4 hpickA,
        hpick pickB 6 hpickB, hcode severity 27 hseverity, hyes thermal 28 hthermal, toFin_val]
      rfl
    · refine writeEntry_die_refused ?_
      simp only [DieRecord.writeEntry, gaugeOf_none hbad]

end Sys2Proof.Machine
end

section
/-! PROOFS. Temperature readings (R63–R65, R90): what a reading and an expiry do to a strand, the clearing test of
TEMP_STALE, and the three moments that make it. -/

namespace Sys2Proof.Machine

/-! ## The clearing test (R64, log 33) -/

/-- A strand is STALE. -/
theorem isStale_iff (r : StrandTemp) : r.isStale = true ↔ ∃ temp taken, r = .stale temp taken := by
  cases r <;> simp [StrandTemp.isStale]

/-- The clearing test looks for a strand of the die in service that is STALE. -/
theorem any_isStale_iff (s : State) :
    (usedStrands s).any (fun t => (s.tmu.strands[t]).isStale) = true ↔
      ∃ t ∈ usedStrands s, ∃ temp taken, s.tmu.strands[t] = .stale temp taken := by
  simp only [List.any_eq_true, isStale_iff]

/-- With a STALE strand in use the flag stays as it is. -/
theorem staleClearTest_stale {s : State}
    (h : ∃ t ∈ usedStrands s, ∃ temp taken, s.tmu.strands[t] = .stale temp taken) : staleClearTest s = s :=
  if_pos ((any_isStale_iff s).2 h)

/-- With no STALE strand in use the flag clears. -/
theorem staleClearTest_clears {s : State}
    (h : ¬ ∃ t ∈ usedStrands s, ∃ temp taken, s.tmu.strands[t] = .stale temp taken) :
    staleClearTest s = { s with mga := { s.mga with alarms := s.mga.alarms &&& ~~~8#9 } } :=
  if_neg fun hany => h ((any_isStale_iff s).1 hany)

/-- Without a die in service no strand is in use. -/
theorem usedStrands_nil {s : State} (h : ∀ k : Fin 8, (s.dlb.slots[k]).state ≠ .inService) :
    usedStrands s = [] := by
  have hnone : servingSlot s = none := List.find?_eq_none.2 fun k _ => by simpa using h k
  rw [usedStrands, hnone]

/-! ## Readings (R63) -/

/-- A reading of one of the four strands. -/
theorem takeReading_strand (p : Fin 8) (t : Fin 4) (valid : Bool) (temp : Nat) (s : State) :
    takeReading p { strand := t.val, valid := valid, temp := temp } s =
      if valid && decide (temp ≤ 8000) then
        staleClearTest { s with tmu := { s.tmu with
          strands := s.tmu.strands.set t (.fresh temp s.now (s.now + s.tmu.holdTime * 1000)) } }
      else countPort p.castSucc .tempInvalid s := by
  simp only [takeReading, toFin_val]
  rfl

/-- The oldest TEMP frame is taken. -/
theorem takeTemp_some {s : State} {f : HeldFrame} (h : s.pool.held.find? (·.tmu) = some f) :
    takeTemp s =
      releaseFirst (·.tmu) (fun x => { x with tmu := false })
        (forEach (tempReadings f.bytes) (takeReading f.port) s) := by
  simp only [takeTemp, h]

/-- Without a TEMP frame nothing is taken. -/
theorem takeTemp_none {s : State} (h : s.pool.held.find? (·.tmu) = none) : takeTemp s = s := by
  simp only [takeTemp, h]

/-! ## Expiries (R64) -/

/-- The state once strand t has become STALE with its reading kept. -/
def madeStale (t : Fin 4) (temp taken : Nat) (s : State) : State :=
  { s with tmu := { s.tmu with strands := s.tmu.strands.set t (.stale temp taken) } }

/-- TEMP_EXPIRY of one of the four strands. -/
theorem exec_tempExpiry (t : Fin 4) (s : State) : exec (.tempExpiry t.val) s = .next (expireTemp t s) :=
  withIndex_val t s expireTemp

/-- A FRESH strand at its expiry. -/
theorem expireTemp_due {t : Fin 4} {s : State} {temp taken expiry : Nat}
    (hfresh : s.tmu.strands[t] = .fresh temp taken expiry) (hdue : expiry ≤ s.now) :
    expireTemp t s =
      if s.dlb.service = .inspecting ∧ t ∈ usedStrands s then
        raiseAlarm .tempStale t.val (madeStale t temp taken s)
      else madeStale t temp taken s := by
  have hused : (inspecting (setTemp t (.stale temp taken) s) &&
      (usedStrands (setTemp t (.stale temp taken) s)).contains t) = true ↔
      s.dlb.service = .inspecting ∧ t ∈ usedStrands s := by
    simp only [Bool.and_eq_true, List.contains_iff_mem, inspecting, decide_eq_true_eq]
    rfl
  simp only [expireTemp, hfresh, if_pos hdue, hused]
  rfl

/-- A strand that is not FRESH, or not yet at its expiry, is left. -/
theorem expireTemp_early {t : Fin 4} {s : State}
    (h : ∀ temp taken expiry, s.tmu.strands[t] = .fresh temp taken expiry → s.now < expiry) :
    expireTemp t s = s := by
  unfold expireTemp
  split
  · rename_i temp taken expiry hfresh
    exact if_neg (Nat.not_le.2 (h temp taken expiry hfresh))
  · rfl

/-! ## Placement and DEACTIVATE (R65, R90) -/

/-- With every strand record NONE the clearing test clears the flag. -/
theorem forgetTemps_eq (s : State) :
    forgetTemps s =
      { s with
        tmu := { s.tmu with strands := .replicate 4 .none }
        mga := { s.mga with alarms := s.mga.alarms &&& ~~~8#9 } } :=
  staleClearTest_clears fun ⟨t, _, temp, taken, h⟩ => by simp at h

/-- The arming of the trigger generator leaves the agent alone. -/
theorem armTrigger_mga (s : State) : (armTrigger s).mga = s.mga := by
  unfold armTrigger
  split <;> rfl

/-- What follows a placement from IDLE leaves the agent as the placement does. -/
theorem startInspection_mga (k : Fin 8) (s : State) : (startInspection k s).mga = (placeInService k s).mga := by
  simp only [startInspection, setStillness_fields, armTrigger_mga, setService_fields]

/-- A slot once those of a state have become READY. -/
theorem readyFrom_slot (old : DieState) (s : State) (k : Fin 8) :
    (readyFrom old s).dlb.slots[k] =
      if (s.dlb.slots[k]).state = old then { s.dlb.slots[k] with state := .ready } else s.dlb.slots[k] :=
  updAll_get s.dlb.slots k _

/-- Slots sent from one state to READY leave none in it. -/
theorem readyFrom_state {old : DieState} (hold : old ≠ .ready) (s : State) (k : Fin 8) :
    ((readyFrom old s).dlb.slots[k]).state ≠ old := by
  rw [readyFrom_slot]
  split
  · exact hold.symm
  · assumption

/-- Slots sent to READY put no slot into another state. -/
theorem readyFrom_state_ne {old other : DieState} (hother : other ≠ .ready) {s : State} {k : Fin 8}
    (h : (s.dlb.slots[k]).state ≠ other) : ((readyFrom old s).dlb.slots[k]).state ≠ other := by
  rw [readyFrom_slot]
  split
  · exact hother.symm
  · exact h

/-- A flush leaves the die slots alone. -/
theorem flushMap_dies (s : State) : (flushMap s).dlb.slots = s.dlb.slots :=
  (flushMap_only (l := flushParts) Only.rfl).kept .dies

/-- With no die in service the clearing test of the end of inspection clears the flag. -/
theorem stopped_mga {u : State} (h : ∀ k : Fin 8, (u.dlb.slots[k]).state ≠ .inService) :
    (setStillness .halted (staleClearTest (stopTrigger (setService .idle u)))).mga =
      { u.mga with alarms := u.mga.alarms &&& ~~~8#9 } := by
  have hnone : usedStrands (stopTrigger (setService .idle u)) = [] := usedStrands_nil h
  rw [staleClearTest_clears fun ⟨t, ht, _⟩ => by rw [hnone] at ht; cases ht]
  rfl

/-- At the end of inspection no die serves any more. -/
theorem endInspection_mga (s : State) :
    let flushed := flushMap (readyFrom .staged (readyFrom .inService s))
    (endInspection s).mga = { flushed.mga with alarms := flushed.mga.alarms &&& ~~~8#9 } :=
  stopped_mga fun k => by
    rw [flushMap_dies]
    exact readyFrom_state_ne (by decide) (readyFrom_state (by decide) s k)

/-- A ready request of a command of one size is executed and answered. -/
theorem takeRequest_asked {s : State} {r : Request} {rest : List Request} (h : Ready s r rest) {command : Byte}
    {size : Nat} (hasks : Asks r command size) (run : Execution) :
    takeRequest (isCommand command) (sizeIs size) run s =
      let done := run r (begun s r rest)
      answered r done.1.status done.1.data done.2 := by
  obtain ⟨hcommand, hlength⟩ := hasks
  have hselect : isCommand command r = true := beq_iff_eq.2 hcommand
  exact (takeRequest_ready h hselect _ _).trans (if_pos (beq_iff_eq.2 hlength))

/-- A ready DEACTIVATE while INSPECTING answers the slot that served. -/
theorem exec_deactivate_inspecting {s : State} {r : Request} {rest : List Request} {k : Fin 8}
    (h : Ready s r rest) (hasks : Asks r 10 0) (hservice : (begun s r rest).dlb.service = .inspecting)
    (hslot : servingSlot (begun s r rest) = some k) :
    exec .deactivate s = .next (answered r .ok (beNat 1 k.val) (endInspection (begun s r rest))) := by
  have hrun : deactivate r (begun s r rest) = answer (beNat 1 k.val) (endInspection (begun s r rest)) := by
    rw [deactivate, inspecting, hservice, hslot]
    rfl
  have htaken := takeRequest_asked h hasks deactivate
  rw [hrun] at htaken
  exact congrArg Host.Outcome.next htaken

/-- Settles O26: the readings by their validity, the expiry by the clock, and the clearing test where it is made. -/
theorem temperatureReadingsAreKeptAndExpire : Obligations.TemperatureReadingsAreKeptAndExpire := by
  refine ⟨⟨fun s f hheld => congrArg _ (takeTemp_some hheld), fun s hnone => congrArg _ (takeTemp_none hnone),
      fun s p t temp => ⟨fun hlow => ?_, fun hhigh => ?_, takeReading_strand p t false temp s⟩⟩,
    fun t s => ⟨fun temp taken expiry hfresh hdue => ?_, fun hearly => ?_⟩,
    fun s => ⟨staleClearTest_stale, staleClearTest_clears, usedStrands_nil⟩,
    fun k s => ⟨forgetTemps_eq _, startInspection_mga k s⟩,
    fun s r rest k h hasks hservice hslot =>
      ⟨_, exec_deactivate_inspecting h hasks hservice hslot, endInspection_mga _⟩⟩
  · exact (takeReading_strand p t true temp s).trans (if_pos (decide_eq_true hlow))
  · exact (takeReading_strand p t true temp s).trans (if_neg (by simpa using hhigh))
  · intro u
    rw [exec_tempExpiry, expireTemp_due hfresh hdue]
    refine ⟨fun hservice hused => congrArg _ (if_pos ⟨hservice, hused⟩), fun hquiet => congrArg _ (if_neg ?_)⟩
    rintro ⟨hservice, hused⟩
    exact hquiet.elim (· hservice) (· hused)
  · rw [exec_tempExpiry, expireTemp_early hearly]

end Sys2Proof.Machine
end

section
/-! PROOFS. The answers to TABLE_READ, READ_CELLS and READ_PIECES (R58, R70, R82, R128, R158, R174): what each request
answers, and the bytes of an entry, a cell and a piece. -/

namespace Sys2Proof.Machine

/-! ## The checks, in order (R77, R128, R158) -/

/-- Arguments that name no target. -/
theorem checkTarget_none {r : Request} (h : targetOf (r.arg 0) (r.arg 1) (r.arg 2) (r.arg 3) = none) :
    checkTarget r.args = .error .badValue := by
  unfold Request.arg at h
  simp only [checkTarget, h]

/-- Arguments that name a target are checked against its entries. -/
theorem checkTarget_some {r : Request} {w : Target}
    (h : targetOf (r.arg 0) (r.arg 1) (r.arg 2) (r.arg 3) = some w) :
    checkTarget r.args =
      if r.arg 4 ≤ r.arg 5 ∧ r.arg 5 < w.entries then .ok w else .error .range := by
  unfold Request.arg at h ⊢
  simp only [checkTarget, h]

/-- A TABLE_READ request that names no target. -/
theorem tableRead_noTarget {r : Request} (h : targetOf (r.arg 0) (r.arg 1) (r.arg 2) (r.arg 3) = none) (s : State) :
    tableRead r s = refuse .badValue s := by
  rw [tableRead, checkTarget_none h]

/-- A TABLE_READ request beyond the entries of its target. -/
theorem tableRead_outside {r : Request} {w : Target}
    (h : targetOf (r.arg 0) (r.arg 1) (r.arg 2) (r.arg 3) = some w)
    (hout : r.arg 5 < r.arg 4 ∨ w.entries ≤ r.arg 5) (s : State) : tableRead r s = refuse .range s := by
  rw [tableRead, checkTarget_some h, if_neg (by omega)]

/-- A TABLE_READ request within the entries of its target. -/
theorem tableRead_inside {r : Request} {w : Target}
    (h : targetOf (r.arg 0) (r.arg 1) (r.arg 2) (r.arg 3) = some w) (hfirst : r.arg 4 ≤ r.arg 5)
    (hlast : r.arg 5 < w.entries) (s : State) :
    let n := min w.readLimit (r.arg 5 - r.arg 4 + 1)
    tableRead r s = answer
      (tableStatus w s ++ beNat 1 n ++ ((List.range n).map fun i => readEntry w (r.arg 4 + i) s).flatten) s := by
  have hcount : r.arg 5 + 1 - r.arg 4 = r.arg 5 - r.arg 4 + 1 := by omega
  rw [tableRead, checkTarget_some h, if_pos ⟨hfirst, hlast⟩, ← hcount]
  simp only [counted, List.length_range, List.append_assoc]
  rfl

/-- A READ_CELLS request that names no strand. -/
theorem readCells_noStrand {r : Request} (h : 3 < r.arg 0) (s : State) : readCells r s = refuse .badValue s := by
  have hnone : toFin 4 (natAt r.args 0 1) = none := toFin_none h
  simp only [readCells, hnone]

/-- A READ_CELLS request of a strand: the number of cells, the service state, and the answer. -/
theorem readCells_strand {r : Request} {t : Fin 4} (h : r.arg 0 = t.val) (s : State) :
    readCells r s =
      if r.arg 5 = 0 ∨ 16 < r.arg 5 then refuse .range s
      else if s.dlb.service = .unconfigured then refuse .state s
      else answer
        (beNat 1 (r.arg 5) ++
          ((List.range (r.arg 5)).map fun i =>
            cellReading s.lmp.rings[t] (BitVec.ofNat 32 (natAt r.args 1 4) + BitVec.ofNat 32 i)).flatten ++
          placeBytes s) s := by
  have hstrand : toFin 4 (natAt r.args 0 1) = some t := (congrArg (toFin 4) h).trans (toFin_val t)
  simp only [readCells, hstrand, counted, List.length_range]
  rfl

/-- The three cells of the present position, with a geometry. -/
theorem placeBytes_placed {s : State} {g : Geometry} (h : s.lmp.geometry = some g) :
    placeBytes s =
      wordBytes (seqOf (g.dieCell s.pos.station)) ++ wordBytes (seqOf (g.stationCell s.pos.station)) ++
        wordBytes (seqOf (g.sawCell s.pos.station)) := by
  rw [placeBytes, h]

/-- A READ_PIECES request that names no strand. -/
theorem readPieces_noStrand {r : Request} (h : 3 < r.arg 0) (s : State) :
    readPieces r s = refuse .badValue s := by
  have hnone : toFin 4 (natAt r.args 0 1) = none := toFin_none h
  simp only [readPieces, hnone]

/-- A READ_PIECES request of a strand: the first entry, the service state, and the answer. -/
theorem readPieces_strand {r : Request} {t : Fin 4} (h : r.arg 0 = t.val) (s : State) :
    let p := s.pcu.strands[t]
    let log := s.pcu.log.filter (fun e => decide (e.completed.strand = t))
    readPieces r s =
      if 15 < r.arg 1 then refuse .range s
      else if s.dlb.service = .unconfigured then refuse .state s
      else answer
        (beNat 4 p.next.toNat ++ optional (pieceBytes none) p.openPiece ++
          beNat 1 p.closing.length ++ (p.closing.map fun c => pieceBytes (some c.cut) c.piece).flatten ++
          beNat 1 log.length ++ beNat 1 ((log.drop (r.arg 1)).take 4).length ++
          (((log.drop (r.arg 1)).take 4).map entryBytesOf).flatten) s := by
  have hstrand : toFin 4 (natAt r.args 0 1) = some t := (congrArg (toFin 4) h).trans (toFin_val t)
  simp only [readPieces, hstrand, counted, List.append_assoc]
  rfl

/-! ## Entries of tables (R58, R70, R82) -/

/-- The code of a severity or consequence. -/
theorem codeByte_consequence (c : Consequence) :
    codeByte consequenceList c = [match c with | .scrap => 0 | .hold => 1 | .note => 2] := by
  cases c <;> rfl

/-- The code of a pick. -/
theorem codeByte_pick (p : Pick) :
    codeByte pickList p = [match p with | .min => 0 | .max => 1 | .mean => 2] := by
  cases p <;> rfl

/-- The code of a head state. -/
theorem codeByte_headState (x : HeadState) :
    codeByte headStateList x = [match x with | .off => 0 | .listen => 1 | .measure => 2 | .fenced => 3] := by
  cases x <;> rfl

/-- The code of a die slot's state. -/
theorem codeByte_dieState (x : DieState) :
    codeByte dieStateList x =
      [match x with
        | .empty => 0 | .loading => 1 | .ready => 2 | .faulty => 3 | .staged => 4 | .inService => 5] := by
  cases x <;> rfl

/-- A flag, SET as 0 and CLEAR as 1. -/
theorem byteOf_flagCode (b : Bool) : byteOf (flagCode b) = [if b then 0 else 1] := by
  cases b <;> rfl

/-- An entry of a head. -/
theorem readEntry_heads (h : Fin 16) (s : State) : readEntry .heads h.val s = headRecord s.heads[h] := by
  simp only [readEntry, toFin_val, Option.elim_some]

/-- An entry of a head whose written flag is CLEAR. -/
theorem headRecord_clear {x : Head} (h : x.written = false) :
    headRecord x = padTo 40 (List.replicate 12 0 ++
      (codeByte headStateList x.state ++ beNat 1 x.missRun ++ beNat 1 x.restoreRun) ++ [1]) := by
  simp only [headRecord, headCalBytes, h, byteOf_flagCode, List.append_assoc]
  rfl

/-- An entry of a head whose written flag is SET. -/
theorem headRecord_set {x : Head} (h : x.written = true) :
    headRecord x = padTo 40
      (beNat 1 x.cal.strand.val ++ beInt 2 x.cal.cosine ++ beInt 2 x.cal.sine ++ beInt 3 x.cal.x0 ++
        beInt 3 x.cal.y0 ++ beNat 1 x.cal.minQuality ++
        (codeByte headStateList x.state ++ beNat 1 x.missRun ++ beNat 1 x.restoreRun) ++ [0]) := by
  simp only [headRecord, headCalBytes, h, byteOf_flagCode, List.append_assoc]
  rfl

/-- A die part's entry of a slot that is not EMPTY. -/
theorem readEntry_die {k : Fin 8} {s : State} (h : (s.dlb.slots[k]).state ≠ .empty) (part : DiePart) (i : Nat) :
    readEntry (.die k part) i s = (s.dlb.slots[k]).record.readEntry part i := if_neg h

/-- A curve is complete just when every one of its 33 points was written. -/
theorem filled_iff (c : Curve) : c.filled = true ↔ ∀ i < 33, c.written.getLsbD i = true := by
  rw [Curve.filled, beq_iff_eq]
  constructor
  · intro h i hi
    rw [h, BitVec.getLsbD_allOnes, decide_eq_true hi]
  · intro h
    refine BitVec.eq_of_getLsbD_eq fun i hi => ?_
    rw [h i hi, BitVec.getLsbD_allOnes, decide_eq_true hi]

/-! ## Cells and pieces (R128, R158) -/

/-- An empty ring slot. -/
theorem cellReading_empty {r : Ring} {n : Word32} (h : r.at (slotOf n) = none) : cellReading r n = [2] := by
  rw [cellReading, h]

/-- A ring slot that holds another cell. -/
theorem cellReading_other {r : Ring} {n : Word32} {c : Cell} (h : r.at (slotOf n) = some c) (hother : c.number ≠ n) :
    cellReading r n = [1] ++ beNat 4 c.number.toNat := by
  rw [cellReading, h]
  exact if_neg hother

/-- A ring slot that holds the cell. -/
theorem cellReading_held {r : Ring} {n : Word32} {c : Cell} (h : r.at (slotOf n) = some c) (hown : c.number = n) :
    cellReading r n = 0 :: cellBytes c := by
  rw [cellReading, h]
  exact if_pos hown

/-- One kind of a mark set. -/
theorem markByte_eq (m : Option Consequence) :
    markByte m = match m with
      | none => 0 | some .scrap => 1 | some .hold => 2 | some .note => 3 := by
  rcases m with _ | c
  · rfl
  · cases c <;> rfl

/-- The code of a cell's state. -/
theorem codeByte_cellState (x : CellState) :
    codeByte cellStateList x = [match x with | .unseen => 0 | .approach => 1 | .live => 2 | .closed => 3] := by
  cases x <;> rfl

/-- The code of a cell's verdict. -/
theorem codeByte_cellVerdict (v : CellVerdict) :
    codeByte cellVerdictList v = [match v with | .good => 0 | .warn => 1 | .hold => 2 | .scrap => 3] := by
  cases v <;> rfl

/-- The code of a piece's verdict. -/
theorem codeByte_pieceVerdict (v : PieceVerdict) :
    codeByte pieceVerdictList v =
      [match v with | .accept => 0 | .trim => 1 | .hold => 2 | .scrap => 3 | .aborted => 4] := by
  cases v <;> rfl

/-- The code of a zone's class. -/
theorem codeByte_zoneClass (c : ZoneClass) : codeByte zoneClassList c = [if c = .hold then 0 else 1] := by
  cases c <;> rfl

/-- Numbers of one byte each, one after another. -/
theorem flatten_map_byteOf (l : List Nat) : (l.map byteOf).flatten = l.map (BitVec.ofNat 8) := by
  induction l with
  | nil => rfl
  | cons n l ih => rw [List.map_cons, List.flatten_cons, ih, byteOf, beNat_one, List.map_cons, List.singleton_append]

/-- Settles O47: the checks of the three requests and their answers, and the bytes of entries, cells and pieces. -/
theorem readRequestsAnswerWhatIsHeld : Obligations.ReadRequestsAnswerWhatIsHeld := by
  refine ⟨fun s r rest h hasks => ?_, fun s r rest h => ⟨fun hasks => ?_, fun hasks => ?_⟩, fun s => ?_, ?_, ?_⟩
  · intro u first last
    rw [show exec .tableRead s = _ from congrArg Host.Outcome.next (takeRequest_asked h hasks tableRead)]
    refine ⟨fun hnone => ?_, fun w hw => ⟨fun hout => ?_, fun hfirst hlast => ?_⟩⟩
    · rw [tableRead_noTarget hnone]
      rfl
    · rw [tableRead_outside hw hout]
      rfl
    · intro n
      rw [tableRead_inside hw hfirst hlast]
      rfl
  · rw [show exec .readCells s = _ from congrArg Host.Outcome.next (takeRequest_asked h hasks readCells)]
    refine ⟨fun hbeyond => ?_, fun t ht => ⟨fun hcount => ?_, fun hone hsixteen => ⟨fun hservice => ?_,
      fun g hg hservice => ?_⟩⟩⟩
    · rw [readCells_noStrand hbeyond]
      rfl
    · rw [readCells_strand ht, if_pos hcount]
      rfl
    · rw [readCells_strand ht, if_neg (by omega), if_pos hservice]
      rfl
    · rw [readCells_strand ht, if_neg (by omega), if_neg hservice, placeBytes_placed hg]
      simp only [List.append_assoc]
      rfl
  · rw [show exec .readPieces s = _ from congrArg Host.Outcome.next (takeRequest_asked h hasks readPieces)]
    refine ⟨fun hbeyond => ?_, fun t ht => ⟨fun hfirst => ?_, fun hfirst hservice => ?_,
      fun hfirst hservice => ?_⟩⟩
    · rw [readPieces_noStrand hbeyond]
      rfl
    · rw [readPieces_strand ht, if_pos hfirst]
      rfl
    · rw [readPieces_strand ht, if_neg (by omega), if_pos hservice]
      rfl
    · intro p log
      rw [readPieces_strand ht, if_neg (by omega), if_neg hservice]
      rfl
  · intro padded yes perhaps severity pick
    have hseverity : ∀ c : Consequence, codeByte consequenceList c = [severity c] := codeByte_consequence
    have hpick : ∀ p : Pick, codeByte pickList p = [pick p] := codeByte_pick
    have hperhaps : ∀ x : Option Nat, optional byteOf x = perhaps x := optional_eq_elim byteOf
    refine ⟨fun h => ?_, fun n i => ?_, fun k part i hempty => if_pos hempty, fun k hfull => ?_, rfl, fun n => ?_,
      fun k part => ?_, rfl, fun n k t => ⟨rfl, rfl, rfl, rfl, rfl⟩⟩
    · intro x state runs
      have hruns : codeByte headStateList x.state ++ beNat 1 x.missRun ++ beNat 1 x.restoreRun = runs := by
        have hstate : codeByte headStateList x.state = [state] := codeByte_headState x.state
        rw [hstate]
      rw [readEntry_heads]
      refine ⟨fun hclear => ?_, fun hset => ?_⟩
      · rw [headRecord_clear hclear, hruns]
        rfl
      · rw [headRecord_set hset, hruns]
        rfl
    · intro x
      rw [readEntry, curveRecord, curveEntry_val, curveEntry_val]
      rfl
    · intro d e
      refine ⟨?_, fun t => ?_, fun i hi => ?_, fun t i => ?_, fun t i => ?_⟩
      · rw [readEntry_die hfull, DieRecord.readEntry, dieEntryRecord, hseverity]
        rfl
      · rw [readEntry_die hfull, DieRecord.readEntry, toFin_val]
        rfl
      · intro w
        have hwindow : d.readEntry .marks i = markRecord w := by rcases i with _ | _ | i <;> rfl
        rw [readEntry_die hfull, hwindow, markRecord, hseverity]
        rfl
      · intro w
        rw [readEntry_die hfull, DieRecord.readEntry, toFin_val]
        rfl
      · intro g
        have hkind : codeByte kindList g.kind = [if g.kind = .span then 0 else 1] := by cases g.kind <;> rfl
        have haxis : codeByte axisList g.axis = [if g.axis = .x then 0 else 1] := by cases g.axis <;> rfl
        rw [readEntry_die hfull, DieRecord.readEntry, toFin_val, Option.elim_some, gaugeRecord, hkind, haxis,
          hpick, hpick, hseverity]
        rfl
    · refine ⟨fun hall => ?_, fun ⟨i, hi, hclear⟩ => ?_⟩
      · rw [tableStatus, (filled_iff _).2 hall]
        rfl
      · have hmissing : (s.tmu.curves[n]).filled = false := Bool.eq_false_iff.2 fun hfilled => by
          rw [(filled_iff _).1 hfilled i hi] at hclear
          cases hclear
        rw [tableStatus, hmissing]
        rfl
    · intro x state
      have hstate : codeByte dieStateList (s.dlb.slots[k]).state = [state] := codeByte_dieState x.state
      rw [tableStatus, slotStatus, hstate, hperhaps, hperhaps, hperhaps]
  · intro r n
    refine ⟨cellReading_empty, fun c hc => ⟨cellReading_other hc, fun hown => ?_⟩⟩
    intro state mark verdict
    have hmark : ∀ m : Option Consequence, markByte m = mark m := markByte_eq
    have hverdict : ∀ v : CellVerdict, codeByte cellVerdictList v = [verdict v] := codeByte_cellVerdict
    rw [cellReading_held hc hown, cellBytes, codeByte_cellState, byteOf_flagCode, markBytes, hmark, hmark, hmark, hmark,
      flatten_map_byteOf]
    cases c.result with
    | none => rfl
    | some x =>
      rw [optional, resultBytes, hverdict, optional_eq_elim]
      rfl
  · intro zone content
    have hzone : zoneBytes = zone := funext fun z => by
      rw [zoneBytes, codeByte_zoneClass, optional_eq_elim]
      rfl
    have hcontent : ∀ p : Piece, pieceTail p = content p := fun p => by
      rw [pieceTail, hzone, byteOf_flagCode, counted, ← List.append_assoc]
      rfl
    refine ⟨fun p => ?_, fun p cut => ?_, fun e => ?_⟩
    · rw [pieceBytes, hcontent]
      rfl
    · rw [pieceBytes, hcontent, List.append_assoc (beNat 4 p.first.toNat)]
      rfl
    · intro c verdict
      rw [entryBytesOf, hcontent, codeByte_pieceVerdict]
      cases e.sent <;> rfl

end Sys2Proof.Machine
end

section
/-! PROOFS. The gauge evaluator (R94–R110): the taking of a slot, picks and hot values, the outcome of a cell and its
delivery, and the section record of a strand. -/

namespace Sys2Proof.Machine

/-! ## Taking and completing a slot (R94, R95, R97) -/

/-- An idle evaluator takes the slot at the head of its queue. -/
theorem takeSlot_idle {s : State} {i : Fin 16} {rest : List (Fin 16)} (hqueue : s.gev.queue = i :: rest)
    (hidle : s.gev.current = none) :
    takeSlot s =
      { s.modSlot i fun x => { x with state := .evaluating } with
        gev := { queue := rest, current := some (i, blankedAt s (s.sau.slots[i]).station) } } := by
  simp only [takeSlot, hidle, hqueue]

/-- A slot in evaluation is completed. -/
theorem completeEvaluation_current {s : State} {i : Fin 16} {blanked : Bool}
    (h : s.gev.current = some (i, blanked)) :
    let slot := s.sau.slots[i]
    let u := forEach (usedStrands s) (if blanked then completeBlanked slot else completeEvaluated slot) s
    let v := u.modSlot i fun _ => Slot.empty
    completeEvaluation s = takeSlot { v with gev := { v.gev with current := none } } := by
  simp only [completeEvaluation, h]
  rfl

/-- With no slot in evaluation there is nothing to complete. -/
theorem completeEvaluation_idle {s : State} (h : s.gev.current = none) : completeEvaluation s = s := by
  simp only [completeEvaluation, h]

/-! ## Delivery (R107) -/

/-- A cell is open unless it is CLOSED. -/
theorem isOpen_iff (c : Cell) : c.isOpen = true ↔ c.state ≠ .closed := bne_iff_ne

/-- An outcome reaches a cell that the ring holds open. -/
theorem deliver_open {t : Fin 4} {n : Word32} {c : Cell} {s : State} (hcell : (s.lmp.rings[t]).cell n = some c)
    (hopen : c.state ≠ .closed) (f : Cell → Cell) : deliver t n f s = s.modRing t (Ring.onCell n f) := by
  rw [deliver, hcell, Option.any_some, if_pos ((isOpen_iff c).2 hopen)]

/-- An outcome of a cell that the ring does not hold, or holds CLOSED, is discarded and counted. -/
theorem deliver_beyond {t : Fin 4} {n : Word32} {s : State}
    (h : ∀ c : Cell, (s.lmp.rings[t]).cell n = some c → c.state = .closed) (f : Cell → Cell) :
    deliver t n f s = countStrand t .beyondSaw s := by
  refine if_neg fun hany => ?_
  obtain ⟨c, hcell, hopen⟩ := (Option.any_eq_true ..).1 hany
  exact (isOpen_iff c).1 hopen (h c hcell)

/-- A delivery keeps queue C. -/
theorem deliver_queueC (t : Fin 4) (n : Word32) (f : Cell → Cell) (c : StrandCounter) (s : State) :
    (deliver t n f (countStrand t c s)).egs.c = s.egs.c :=
  (deliver_only (l := [.rings, .counters]) (countStrand_only Only.rfl)).kept .queueC

/-- A delivery keeps the addresses and the frame type that a report is made with. -/
theorem makeFrame_deliver (t : Fin 4) (n : Word32) (f : Cell → Cell) (c : StrandCounter) (s : State)
    (dest : Option Address) (content : Content) :
    makeFrame (deliver t n f (countStrand t c s)) dest content = makeFrame s dest content := by
  have hsettings : (deliver t n f (countStrand t c s)).settings = s.settings :=
    (deliver_only (l := [.rings, .counters]) (countStrand_only Only.rfl)).kept .settings
  exact congrArg (fun x : Settings => OutFrame.mk x.frameType x.station dest content) hsettings

/-! ## The outcome of a cell (R106, R108) -/

/-- A gauge is in the rejects of an outcome just when one of its results is in REJECT. -/
theorem rejected_eq (rs : List GaugeResult) (g : Fin 32) :
    rejected rs g = rs.any fun r => decide (r.gauge = g.val ∧ r.band = .reject) := by
  refine congrArg rs.any (funext fun r => ?_)
  rw [Bool.decide_and]
  rfl

/-- The tally of a gauge after an outcome. -/
theorem applyOutcome_tally (rs : List GaugeResult) (c : Cell) (g : Fin 32) :
    (c.applyOutcome rs).tallies[g] = if rejected rs g then satSucc 15 c.tallies[g] else c.tallies[g] := by
  simp only [Cell.applyOutcome, Fin.getElem_fin, Vector.getElem_ofFn]

/-- The fields of a cell after an outcome, its tallies apart. -/
theorem applyOutcome_fields (rs : List GaugeResult) (c : Cell) :
    c.applyOutcome rs = { c with
      evaluated := satSucc 65535 c.evaluated
      withData := if rs.any (fun r => decide (r.band ≠ .nodata)) then satSucc 65535 c.withData else c.withData
      partials := if rs.any (fun r => r.short) then satSucc 65535 c.partials else c.partials
      warns := if rs.any (fun r => decide (r.band = .warn)) then satSucc 65535 c.warns else c.warns
      tallies := (c.applyOutcome rs).tallies } := by
  have hdata : (fun r : GaugeResult => r.band != .nodata) = fun r => decide (r.band ≠ .nodata) :=
    funext fun r => (decide_not (p := r.band = .nodata)).symm
  rw [← hdata]
  rfl

/-! ## The section record of a strand (R109, R110) -/

/-- A strand section is sampled when it has results and its number passes the masked compare. -/
theorem sampled_iff (die : DieEntry) (seq : BitVec 16) (rs : List GaugeResult) :
    sampled die seq rs = true ↔
      rs ≠ [] ∧ seq &&& die.sampleMask = die.sampleCompare &&& die.sampleMask := by
  rw [sampled, Bool.and_eq_true, beq_iff_eq, Bool.not_eq_true', List.isEmpty_eq_false_iff]

/-- A section record joins queue C while it has room. -/
theorem offerSection_room {s : State} (h : s.egs.c.length < 64) (r : SectionRecord) :
    offerSection r s =
      { s with egs := { s.egs with c := s.egs.c ++ [makeFrame s none (.sectionRecord r)] } } := if_pos h

/-- A full queue C drops a section record, which is counted. -/
theorem offerSection_full {s : State} (h : 64 ≤ s.egs.c.length) (r : SectionRecord) :
    offerSection r s = countGlobal .sectionRecordsDropped s := if_neg (Nat.not_lt.2 h)

/-- A strand's outcome that is not sampled is delivered and no more. -/
theorem completeEvaluated_plain {slot : Slot} {t : Fin 4} {s : State}
    (h : ¬ sampled (servingDie s).entry slot.seq (strandResults (servingDie s) slot t) = true) :
    completeEvaluated slot t s =
      deliver t slot.cell (Cell.applyOutcome (strandResults (servingDie s) slot t)) (countStrand t .evaluated s) :=
  if_neg h

/-- A strand's outcome that is sampled is delivered, and its section record is offered. -/
theorem completeEvaluated_sampled {slot : Slot} {t : Fin 4} {s : State}
    (h : sampled (servingDie s).entry slot.seq (strandResults (servingDie s) slot t) = true) :
    completeEvaluated slot t s =
      offerSection (sectionRecordOf slot t (strandResults (servingDie s) slot t))
        (deliver t slot.cell (Cell.applyOutcome (strandResults (servingDie s) slot t)) (countStrand t .evaluated s)) :=
  if_pos h

/-! ## Picks and hot values (R100, R101, R104) -/

/-- An accumulator gives a pick with the minimum point count of its window and no taint. -/
theorem usable_iff (w : Window) (a : Accumulator) :
    usable w a = true ↔ w.minCount ≤ a.count ∧ a.tainted = false := by
  rw [usable, Bool.and_eq_true, decide_eq_true_iff, Bool.not_eq_true']

/-- The accumulator of a window that the strand has room for, kept when it gives a pick. -/
theorem usableWindow_val (die : DieRecord) (slot : Slot) (t : Fin 4) (k : Fin 64) :
    usableWindow die slot t k.val = ((slot.windows[t])[k.val]?).filter (usable (die.windows[t])[k]) := by
  simp only [usableWindow, toFin_val]
  cases (slot.windows[t])[k.val]? <;> rfl

/-- A window gives its accumulator for a pick just when it has the minimum point count and no taint. -/
theorem usableWindow_iff (die : DieRecord) (slot : Slot) (t : Fin 4) (w : Nat) (a : Accumulator) :
    usableWindow die slot t w = some a ↔
      ∃ k : Fin 64, k.val = w ∧ (slot.windows[t])[w]? = some a ∧ ((die.windows[t])[k]).minCount ≤ a.count ∧
        a.tainted = false := by
  by_cases hw : w < 64
  · obtain ⟨k, rfl⟩ : ∃ k : Fin 64, k.val = w := ⟨⟨w, hw⟩, rfl⟩
    have hnumber : ∀ j : Fin 64, j.val = k.val ↔ j = k := fun j => Fin.ext_iff.symm
    simp only [usableWindow_val, Option.filter_eq_some_iff, usable_iff, hnumber, exists_eq_left]
  · rw [usableWindow, toFin_none (Nat.le_of_not_lt hw)]
    exact ⟨fun hnone => (nomatch hnone), fun ⟨k, hk, _⟩ => absurd (hk ▸ k.isLt) hw⟩

/-- The hot value of a SPAN gauge whose windows both give their pick. -/
theorem hotValue_span {die : DieRecord} {slot : Slot} {t : Fin 4} {g : Gauge} {a b : Accumulator}
    (hkind : g.kind = .span) (ha : usableWindow die slot t g.windowA = some a)
    (hb : usableWindow die slot t g.windowB = some b) :
    hotValue die slot t g = some (saturate 8388607 (b.pick g.axis g.pickB - a.pick g.axis g.pickA)) := by
  simp only [hotValue, hkind, ha, hb]
  rfl

/-- The hot value of a SPREAD gauge whose window gives its pick. -/
theorem hotValue_spread {die : DieRecord} {slot : Slot} {t : Fin 4} {g : Gauge} {a : Accumulator}
    (hkind : g.kind = .spread) (ha : usableWindow die slot t g.windowA = some a) :
    hotValue die slot t g = some (saturate 8388607 (a.pick g.axis .max - a.pick g.axis .min)) := by
  simp only [hotValue, hkind, ha]
  rfl

/-- A gauge without a pick of its window A has no hot value. -/
theorem hotValue_noA {die : DieRecord} {slot : Slot} {t : Fin 4} {g : Gauge}
    (ha : usableWindow die slot t g.windowA = none) : hotValue die slot t g = none := by
  cases hkind : g.kind <;> simp only [hotValue, hkind, ha, Option.map_none]

/-- A SPAN gauge without a pick of its window B has no hot value. -/
theorem hotValue_noB {die : DieRecord} {slot : Slot} {t : Fin 4} {g : Gauge} (hkind : g.kind = .span)
    (hb : usableWindow die slot t g.windowB = none) : hotValue die slot t g = none := by
  cases ha : usableWindow die slot t g.windowA <;> simp only [hotValue, hkind, ha, hb]

/-! ## Gauge results (R99, R104, R105) -/

/-- A gauge without a hot value is NODATA with deviation 0. -/
theorem gaugeResult_noHot {die : DieRecord} {slot : Slot} {t : Fin 4} {n : Fin 32}
    (h : hotValue die slot t (die.gauges[t])[n] = none) :
    (gaugeResult die slot t n).band = .nodata ∧ (gaugeResult die slot t n).deviation = 0 := by
  simp only [gaugeResult, h, and_self]

/-- The number and the PARTIAL flag of a gauge result, whether it has a hot value or none. -/
theorem gaugeResult_labels (die : DieRecord) (slot : Slot) (t : Fin 4) (n : Fin 32) :
    (gaugeResult die slot t n).gauge = n.val ∧
      (gaugeResult die slot t n).short = gaugeShort die slot t (die.gauges[t])[n] := by
  cases h : hotValue die slot t (die.gauges[t])[n] <;> simp only [gaugeResult, h, and_self]

/-- A head is short in a slot that it was to measure and did not complete, and in one that finds it FENCED. -/
theorem isShort_iff (e : HeadEntry) :
    e.isShort = true ↔
      (e.participation = .measure ∧ e.contribution ≠ .complete) ∨ e.participation = .fenced := by
  rw [HeadEntry.isShort, Bool.or_eq_true, Bool.and_eq_true, beq_iff_eq, beq_iff_eq, bne_iff_ne]

/-- A window is short when its head set names a short head. -/
theorem windowShort_iff (die : DieRecord) (slot : Slot) (t : Fin 4) (w : Nat) :
    windowShort die slot t w = true ↔
      ∃ (k : Fin 64) (h : Fin 16), k.val = w ∧ ((die.windows[t])[k]).heads.getLsbD h.val = true ∧
        (((slot.heads[h]).participation = .measure ∧ (slot.heads[h]).contribution ≠ .complete) ∨
          (slot.heads[h]).participation = .fenced) := by
  by_cases hw : w < 64
  · obtain ⟨k, rfl⟩ : ∃ k : Fin 64, k.val = w := ⟨⟨w, hw⟩, rfl⟩
    have hnumber : ∀ j : Fin 64, j.val = k.val ↔ j = k := fun j => Fin.ext_iff.symm
    simp only [windowShort, toFin_val, headIds, List.any_eq_true, List.mem_finRange, true_and, Bool.and_eq_true,
      isShort_iff, hnumber, exists_and_left, exists_eq_left]
  · rw [windowShort, toFin_none (Nat.le_of_not_lt hw)]
    exact ⟨fun hshort => (nomatch hshort), fun ⟨k, _, hk, _⟩ => absurd (hk ▸ k.isLt) hw⟩

/-- A gauge is PARTIAL when one of the windows it needs is short. -/
theorem gaugeShort_iff (die : DieRecord) (slot : Slot) (t : Fin 4) (g : Gauge) :
    gaugeShort die slot t g = true ↔
      windowShort die slot t g.windowA = true ∨ (g.kind = .span ∧ windowShort die slot t g.windowB = true) := by
  rw [gaugeShort, Bool.or_eq_true, Bool.and_eq_true, beq_iff_eq]

/-- Settles O25: the completion by what is in evaluation, the delivery by the cell, the record by the sampling test
and the room in queue C, and the result of a gauge by the picks of its windows. -/
theorem evaluationsDeliverAndFreeTheSlot : Obligations.EvaluationsDeliverAndFreeTheSlot := by
  refine ⟨fun s => ⟨fun i blanked h => congrArg _ (completeEvaluation_current h),
      fun h => congrArg _ (completeEvaluation_idle h)⟩,
    fun t n f s => ⟨fun c hcell hopen => deliver_open hcell hopen f, fun hbeyond => deliver_beyond ?_ f⟩,
    fun s i rest hqueue hidle => takeSlot_idle hqueue hidle,
    fun rs c => ⟨rfl, applyOutcome_fields rs c, fun g => ?_⟩,
    fun slot t s => ?_, fun die slot t n => ?_⟩
  · intro c hcell
    rcases hbeyond with hnone | ⟨d, hd, hclosed⟩
    · rw [hnone] at hcell
      cases hcell
    · rw [hd] at hcell
      cases hcell
      exact hclosed
  · rw [applyOutcome_tally, rejected_eq]
    rfl
  · intro die rs u sample report taken
    have htaken : sampled die.entry slot.seq rs = true ↔ taken := sampled_iff ..
    have hqueue : u.egs.c = s.egs.c := deliver_queueC ..
    have hreport : makeFrame u none (.sectionRecord (sectionRecordOf slot t (strandResults (servingDie s) slot t))) =
        report := makeFrame_deliver ..
    refine ⟨rfl, fun hnot => completeEvaluated_plain (mt htaken.1 hnot), fun hyes hroom => ?_, fun hyes hfull => ?_⟩
    · rw [← hqueue] at hroom
      refine (completeEvaluated_sampled (htaken.2 hyes)).trans ((offerSection_room hroom _).trans ?_)
      rw [hreport, hqueue]
    · rw [← hqueue] at hfull
      exact (completeEvaluated_sampled (htaken.2 hyes)).trans (offerSection_full hfull _)
  · intro g r picks value
    have hpicks : ∀ w a, usableWindow die slot t w = some a ↔ picks w a := usableWindow_iff die slot t
    have hnone : ∀ w, (∀ a, ¬ picks w a) → usableWindow die slot t w = none := fun w h =>
      Option.eq_none_iff_forall_ne_some.2 fun a ha => h a ((hpicks w a).1 ha)
    have hvalue : ∀ a p, a.pick g.axis p = value a p := fun a p => by
      simp only [value]
      cases p <;> cases g.axis <;> rfl
    obtain ⟨hnumber, hshort⟩ := gaugeResult_labels die slot t n
    refine ⟨fun hkind a b ha hb => ?_, fun hkind a ha => ?_, fun h => ?_, gaugeResult_noHot, hnumber, ?_⟩
    · rw [← hvalue, ← hvalue]
      exact hotValue_span hkind ((hpicks ..).2 ha) ((hpicks ..).2 hb)
    · rw [← hvalue, ← hvalue]
      exact hotValue_spread hkind ((hpicks ..).2 ha)
    · rcases h with hA | ⟨hkind, hB⟩
      · exact hotValue_noA (hnone _ hA)
      · exact hotValue_noB hkind (hnone _ hB)
    · have hgauge : r.short = true ↔ _ := hshort ▸ gaugeShort_iff die slot t g
      rw [hgauge, windowShort_iff, windowShort_iff]
      constructor
      · rintro (⟨k, h, hk, hhead⟩ | ⟨hkind, k, h, hk, hhead⟩)
        · exact ⟨k, h, .inl hk, hhead⟩
        · exact ⟨k, h, .inr ⟨hkind, hk⟩, hhead⟩
      · rintro ⟨k, h, hk | ⟨hkind, hk⟩, hhead⟩
        · exact .inl ⟨k, h, hk, hhead⟩
        · exact .inr ⟨hkind, k, h, hk, hhead⟩

end Sys2Proof.Machine
end

section
/-! PROOFS. The counters (12.1, R181, R183): a count while RUNNING and while FROZEN, and the places of the counters. -/

namespace Sys2Proof.Machine

/-- While FROZEN a count is lost. -/
theorem count_frozen {s : State} (h : s.ctb.frozen = true) (f : Counters → Counters) : count f s = s := if_pos h

/-- While RUNNING a count changes the counters as it says. -/
theorem count_running {s : State} (h : s.ctb.frozen = false) (f : Counters → Counters) :
    count f s = { s with ctb := f s.ctb } := if_neg (h ▸ Bool.false_ne_true)

/-- A count changes the counters alone. -/
theorem count_eq (f : Counters → Counters) (s : State) : count f s = { s with ctb := (count f s).ctb } := by
  unfold count
  split <;> rfl

/-- Settles O48: a counting is a `count`, by the freeze flag; the places and names of the counters one by one. -/
theorem countersCountUnlessFrozen : Obligations.CountersCountUnlessFrozen :=
  ⟨fun s =>
    ⟨fun hfrozen => ⟨fun _ _ => count_frozen hfrozen _, fun _ _ => count_frozen hfrozen _,
      fun _ _ => count_frozen hfrozen _, fun _ _ => count_frozen hfrozen _⟩,
    fun hrunning => ⟨fun _ _ => count_running hrunning _, fun _ _ => count_running hrunning _,
      fun _ _ => count_running hrunning _, fun _ _ => count_running hrunning _⟩⟩,
  by decide, by decide, by decide, by decide, by decide, by decide, by decide⟩

end Sys2Proof.Machine
end

section
/-! PROOFS. The cells of a ring (R115): what a change of cells leaves of each, and what changes of the rings of several
strands leave in each ring. -/

namespace Sys2Proof.Machine

/-! ## Cells of one ring -/

/-- A cell that p selects, changed by f; its number stays. -/
def Cell.changed (p : Cell → Bool) (f : Cell → Cell) (c : Cell) : Cell :=
  if p c then { f c with number := c.number } else c

/-- A change keeps the cell's number. -/
@[simp] theorem Cell.changed_number (p : Cell → Bool) (f : Cell → Cell) (c : Cell) :
    (c.changed p f).number = c.number := by
  unfold Cell.changed
  split <;> rfl

/-- Each entry of a ring whose cells were changed. -/
theorem Ring.onCells_eq (p : Cell → Bool) (f : Cell → Cell) (r : Ring) :
    r.onCells p f = r.map fun e => (e.1, e.2.changed p f) := by
  refine List.map_congr_left fun e _ => ?_
  unfold Cell.changed
  split <;> rfl

/-- What a slot of a ring whose cells were changed holds. -/
theorem Ring.at_onCells (p : Cell → Bool) (f : Cell → Cell) (r : Ring) (k : Nat) :
    (r.onCells p f).at k = (r.at k).map (Cell.changed p f) := by
  rw [Ring.onCells_eq, Ring.at, Ring.at, List.find?_map, Option.map_map, Option.map_map]
  rfl

/-- The cell that a ring holds under a number has that number. -/
theorem Ring.number_of_cell {r : Ring} {n : Word32} {c : Cell} (h : r.cell n = some c) : c.number = n := by
  simpa using (Option.filter_eq_some_iff.1 h).2

/-- The cell held under a number is the one in its slot, when that has the number. -/
theorem Ring.cell_eq_some_iff (r : Ring) (n : Word32) (c : Cell) :
    r.cell n = some c ↔ r.at (slotOf n) = some c ∧ c.number = n := by
  simp [Ring.cell, Option.filter_eq_some_iff]

/-- The cell that a ring whose cells were changed holds under a number. -/
theorem Ring.cell_onCells (p : Cell → Bool) (f : Cell → Cell) (r : Ring) (n : Word32) :
    (r.onCells p f).cell n = (r.cell n).map (Cell.changed p f) := by
  rw [Ring.cell, Ring.at_onCells, Ring.cell]
  cases r.at (slotOf n) with
  | none => rfl
  | some c => simp [Option.filter_some, apply_ite]

/-- The cell that was changed alone. -/
theorem Ring.cell_onCell {r : Ring} {n : Word32} {c : Cell} (h : r.cell n = some c) (f : Cell → Cell) :
    (r.onCell n f).cell n = some { f c with number := c.number } := by
  rw [Ring.onCell, Ring.cell_onCells, h, Option.map_some, Cell.changed, if_pos (decide_eq_true (Ring.number_of_cell h))]

/-- A cell put into its slot is held under its number. -/
theorem Ring.cell_put {r : Ring} (h : r.wf = true) (c : Cell) :
    (Ring.put (slotOf c.number) c r).cell c.number = some c := by
  rw [Ring.cell_eq_some_iff, Ring.at_put _ _ _ ((Ring.wf_iff r).1 h).1, if_pos rfl]
  exact ⟨rfl, rfl⟩

/-! ## Entries of a ring -/

/-- An entry of a ring of canonical form is held under its cell's number. -/
theorem Ring.cell_of_mem {r : Ring} (h : r.wf = true) {e : Nat × Cell} (he : e ∈ r) :
    r.cell e.2.number = some e.2 := by
  obtain ⟨hsorted, hslots⟩ := (Ring.wf_iff r).1 h
  rw [Ring.cell_eq_some_iff, ← (hslots e he).2]
  refine ⟨?_, rfl⟩
  obtain ⟨before, after, rfl⟩ := List.append_of_mem he
  have hbefore : before.find? (fun x => decide (x.1 = e.1)) = none := List.find?_eq_none.2 fun x hx => by
    have hlt : x.1 < e.1 := (List.pairwise_append.1 hsorted).2.2 x hx e List.mem_cons_self
    rw [decide_eq_true_iff]
    exact Nat.ne_of_lt hlt
  rw [Ring.at, List.find?_append, hbefore, Option.none_or, List.find?_cons_of_pos (by simp), Option.map_some]

/-- A cell that a ring holds stands in its slot's entry. -/
theorem Ring.mem_of_cell {r : Ring} {n : Word32} {c : Cell} (h : r.cell n = some c) : (slotOf n, c) ∈ r := by
  obtain ⟨hat, -⟩ := (Ring.cell_eq_some_iff ..).1 h
  obtain ⟨e, he, rfl⟩ := Option.map_eq_some_iff.1 hat
  have hslot : e.1 = slotOf n :=
    of_decide_eq_true (List.find?_some (p := fun x : Nat × Cell => decide (x.1 = slotOf n)) he)
  exact hslot ▸ List.mem_of_find?_eq_some he

/-! ## Rings of the strands -/

/-- The ring of a strand after the change of one strand's ring. -/
theorem modRing_ring (t i : Fin 4) (f : Ring → Ring) (s : State) :
    ((s.modRing t f).lmp.rings[i]) = if t = i then f s.lmp.rings[t] else s.lmp.rings[i] := upd_get ..

/-- The ring that was changed. -/
theorem modRing_ring_self (t : Fin 4) (f : Ring → Ring) (s : State) :
    ((s.modRing t f).lmp.rings[t]) = f s.lmp.rings[t] := upd_get_self ..

/-- The ring of a strand after changes of the rings of several strands, each once. -/
theorem forEach_modRing {l : List (Fin 4)} (hl : l.Nodup) (f : Fin 4 → Ring → Ring) (t : Fin 4) (s : State) :
    (forEach l (fun i u => u.modRing i (f i)) s).lmp.rings[t] =
      if t ∈ l then f t s.lmp.rings[t] else s.lmp.rings[t] := by
  induction l generalizing s with
  | nil => rfl
  | cons i l ih =>
    obtain ⟨hi, hl⟩ := List.nodup_cons.1 hl
    refine (ih hl (s.modRing i (f i))).trans ?_
    rw [modRing_ring]
    by_cases hit : i = t
    · subst hit
      simp [hi]
    · simp [hit, Ne.symm hit]

/-- The strands in use stand in ascending order. -/
theorem usedStrands_pairwise (s : State) : (usedStrands s).Pairwise (· < ·) := by
  unfold usedStrands
  split
  · exact (List.pairwise_lt_finRange 4).filter _
  · exact List.Pairwise.nil

/-- No strand is in use twice. -/
theorem usedStrands_nodup (s : State) : (usedStrands s).Nodup := (usedStrands_pairwise s).imp fun h => Fin.ne_of_lt h

/-- The strands in use are those below the strand count of the die in service. -/
theorem mem_usedStrands_iff (s : State) (t : Fin 4) :
    t ∈ usedStrands s ↔
      ∃ k : Fin 8, servingSlot s = some k ∧ t.val < (s.dlb.slots[k]).record.entry.strandCount := by
  unfold usedStrands
  cases servingSlot s <;> simp

end Sys2Proof.Machine
end

section
/-! PROOFS. The verdict of a closing cell (R121–R124): its line, its reasons and its lead gauge. -/

namespace Sys2Proof.Machine

/-! ## Conditions of the lines (R122, R123) -/

/-- A mark set holds a consequence when one of its four marks has it. -/
theorem has_iff (q : Consequence) (m : MarkSet) :
    m.has q = true ↔ m.weld = some q ∨ m.stop = some q ∨ m.start = some q ∨ m.proof = some q := by
  simp only [MarkSet.has, Bool.or_eq_true, beq_iff_eq, or_assoc]

/-- A severity is met when a gauge of it has reached the confirm count. -/
theorem severityMet_iff (die : DieRecord) (t : Fin 4) (q : Consequence) (count : Nat) (c : Cell) :
    severityMet die t q count c = true ↔
      ∃ g : Fin 32, ((die.gauges[t])[g]).severity = q ∧ count ≤ c.tallies[g] := by
  simp [severityMet, gaugeNumbers]

/-- Some gauge has rejected. -/
theorem anyReject_iff (c : Cell) : c.anyReject = true ↔ ∃ g : Fin 32, 0 < c.tallies[g] := by
  simp [Cell.anyReject, gaugeNumbers]

/-- The cell has neither a section with data nor a blanked one. -/
theorem noData_iff (c : Cell) : c.noData = true ↔ c.withData = 0 ∧ c.blanked = 0 := by
  simp [Cell.noData]

/-! ## The verdict (R122) -/

/-- The verdict of a closing cell by its lines. -/
theorem cellVerdict_eq (die : DieRecord) (t : Fin 4) (c : Cell) {line1 line2 line3 line4 : Prop}
    (h1 : (c.marks.has .scrap || severityMet die t .scrap die.entry.scrapConfirm c) = true ↔ line1)
    (h2 : (c.unseen || c.marks.has .hold || severityMet die t .hold die.entry.holdConfirm c) = true ↔ line2)
    (h3 : c.noData = true ↔ line3)
    (h4 : (decide (0 < c.warns) || c.anyReject || c.marks.has .note) = true ↔ line4) :
    (line1 → cellVerdict die t c = .scrap) ∧
    (¬ line1 → line2 → cellVerdict die t c = .hold) ∧
    (¬ line1 → ¬ line2 → line3 → cellVerdict die t c = die.entry.nodata.nodataVerdict) ∧
    (¬ line1 → ¬ line2 → ¬ line3 → line4 → cellVerdict die t c = .warn) ∧
    (¬ line1 → ¬ line2 → ¬ line3 → ¬ line4 → cellVerdict die t c = .good) := by
  rw [← h1, ← h2, ← h3, ← h4, cellVerdict]
  refine ⟨fun l1 => if_pos l1, fun l1 l2 => ?_, fun l1 l2 l3 => ?_, fun l1 l2 l3 l4 => ?_, fun l1 l2 l3 l4 => ?_⟩
  · rw [if_neg l1, if_pos l2]
  · rw [if_neg l1, if_neg l2, if_pos l3]
  · rw [if_neg l1, if_neg l2, if_neg l3, if_pos l4]
  · rw [if_neg l1, if_neg l2, if_neg l3, if_neg l4]

/-! ## The reasons (R123) -/

/-- A reason's bit stands in its own place. -/
theorem getLsbD_reasonBit (i j : Nat) (b : Bool) :
    (reasonBit i b).getLsbD j = (decide (j < 9) && (decide (i = j) && b)) := by
  cases b
  · simp [reasonBit]
  · by_cases h : i = j
    · simp [reasonBit, h]
    · simp [reasonBit, h]
      omega

/-- The reasons of a closing cell, by their bits. -/
theorem cellReasons_bits (c : Cell) :
    (cellReasons c).getLsbD 0 = c.marks.weld.isSome ∧ (cellReasons c).getLsbD 1 = c.marks.stop.isSome ∧
    (cellReasons c).getLsbD 2 = c.marks.start.isSome ∧ (cellReasons c).getLsbD 3 = c.marks.proof.isSome ∧
    (cellReasons c).getLsbD 4 = (c.anyReject || decide (0 < c.warns)) ∧
    (cellReasons c).getLsbD 5 = c.unseen ∧ (cellReasons c).getLsbD 6 = c.noData ∧
    (cellReasons c).getLsbD 7 = (decide (0 < c.blanked) && c.withData == 0) ∧
    (cellReasons c).getLsbD 8 = decide (0 < c.partials) := by
  simp only [cellReasons, BitVec.getLsbD_or, getLsbD_reasonBit]
  simp

/-! ## The lead gauge (R124) -/

/-- A gauge takes the lead when its tally is above the highest so far. -/
def leadStep (tally : Fin 32 → Nat) (best : Option Nat × Nat) (g : Fin 32) : Option Nat × Nat :=
  if best.2 < tally g then (some g.val, tally g) else best

/-- The lead gauge is left by the gauges in ascending order. -/
theorem leadGauge_eq (c : Cell) :
    leadGauge c = ((List.finRange 32).foldl (leadStep fun g => c.tallies[g]) (none, 0)).1 := rfl

/-- Gauges with no higher tally leave the lead. -/
theorem foldl_leadStep_kept {tally : Fin 32 → Nat} {l : List (Fin 32)} {best : Option Nat × Nat}
    (h : ∀ g ∈ l, tally g ≤ best.2) : l.foldl (leadStep tally) best = best := by
  induction l with
  | nil => rfl
  | cons g l ih =>
    obtain ⟨hg, hl⟩ := List.forall_mem_cons.1 h
    rw [List.foldl_cons, leadStep, if_neg (Nat.not_lt.2 hg)]
    exact ih hl

/-- Gauges with tallies below a bound leave the highest tally below it. -/
theorem foldl_leadStep_below {tally : Fin 32 → Nat} {l : List (Fin 32)} {best : Option Nat × Nat} {bound : Nat}
    (hbest : best.2 < bound) (h : ∀ g ∈ l, tally g < bound) : (l.foldl (leadStep tally) best).2 < bound := by
  induction l generalizing best with
  | nil => exact hbest
  | cons g l ih =>
    obtain ⟨hg, hl⟩ := List.forall_mem_cons.1 h
    refine ih ?_ hl
    unfold leadStep
    split
    · exact hg
    · exact hbest

/-- No gauge leads when every tally is 0. -/
theorem leadGauge_none {c : Cell} (h : ∀ g : Fin 32, c.tallies[g] = 0) : leadGauge c = none := by
  rw [leadGauge_eq, foldl_leadStep_kept fun g _ => Nat.le_of_eq (h g)]

/-- The gauge with the highest tally leads, the lowest number among equals. -/
theorem leadGauge_some {c : Cell} {g : Fin 32} (hpos : 0 < c.tallies[g])
    (hmax : ∀ h : Fin 32, c.tallies[h] ≤ c.tallies[g])
    (hlow : ∀ h : Fin 32, h < g → c.tallies[h] < c.tallies[g]) :
    leadGauge c = some g.val := by
  obtain ⟨before, after, hsplit⟩ := List.append_of_mem (List.mem_finRange g)
  have hbefore : ∀ h ∈ before, h < g := fun h hh =>
    (List.pairwise_append.1 (hsplit ▸ List.pairwise_lt_finRange 32)).2.2 h hh g List.mem_cons_self
  have htaken := foldl_leadStep_below (best := (none, 0)) hpos fun h hh => hlow h (hbefore h hh)
  rw [leadGauge_eq, hsplit, List.foldl_append, List.foldl_cons, leadStep, if_pos htaken,
    foldl_leadStep_kept fun h _ => hmax h]

/-! ## Saw crossing (R121) -/

/-- An open cell that crosses the saw is closed with its result, counted and folded. -/
theorem closeCell_open {n : Word32} {t : Fin 4} {s : State} {c : Cell} (hcell : (s.lmp.rings[t]).cell n = some c)
    (hopen : c.state ≠ .closed) :
    let r := cellResult (servingDie s) t c
    closeCell n t s = foldCell t n r (countStrand t r.verdict.counter
      (s.modRing t (Ring.onCell n fun x => { x with state := .closed, result := some r }))) := by
  simp only [closeCell, hcell, (isOpen_iff c).2 hopen, if_true]

/-- A cell that the ring does not hold, or holds CLOSED, is left at the saw. -/
theorem closeCell_left {n : Word32} {t : Fin 4} {s : State}
    (h : (s.lmp.rings[t]).cell n = none ∨ ∃ c : Cell, (s.lmp.rings[t]).cell n = some c ∧ c.state = .closed) :
    closeCell n t s = s := by
  rcases h with hnone | ⟨c, hcell, hclosed⟩
  · simp only [closeCell, hnone]
  · simp only [closeCell, hcell]
    exact if_neg fun hopen => (isOpen_iff c).1 hopen hclosed

/-- Settles O31: the cell closes with `cellResult`, whose verdict is read off its lines, whose reasons off their bits,
and whose lead gauge off the tallies. -/
theorem cellVerdictsFollowTheFirstLine : Obligations.CellVerdictsFollowTheFirstLine := by
  intro n t s c hcell hopen die marked confirmed line1 line2 line3 line4
  have h1 : (c.marks.has .scrap || severityMet die t .scrap die.entry.scrapConfirm c) = true ↔ line1 := by
    rw [Bool.or_eq_true, has_iff, severityMet_iff]
  have h2 : (c.unseen || c.marks.has .hold || severityMet die t .hold die.entry.holdConfirm c) = true ↔ line2 := by
    rw [Bool.or_eq_true, Bool.or_eq_true, or_assoc, has_iff, severityMet_iff]
  have h3 : c.noData = true ↔ line3 := noData_iff c
  have h4 : (decide (0 < c.warns) || c.anyReject || c.marks.has .note) = true ↔ line4 := by
    rw [Bool.or_eq_true, Bool.or_eq_true, or_assoc, decide_eq_true_iff, anyReject_iff, has_iff]
  obtain ⟨scrapLine, holdLine, nodataLine, warnLine, goodLine⟩ := cellVerdict_eq die t c h1 h2 h3 h4
  obtain ⟨weld, stop, start, proof, gauges, unseen, noData, blanked, partials⟩ := cellReasons_bits c
  refine ⟨cellResult die t c, closeCell_open hcell hopen, scrapLine, holdLine, fun l1 l2 l3 => ?_, warnLine, goodLine,
    ?_, ?_, ?_, ?_, ?_, ?_, ?_, ?_, ?_, leadGauge_none, fun g => leadGauge_some⟩
  · have hverdict : (cellResult die t c).verdict = _ := nodataLine l1 l2 l3
    rw [hverdict]
    exact ⟨fun h => h ▸ rfl, fun h => h ▸ rfl, fun h => h ▸ rfl⟩
  · exact weld ▸ Option.isSome_iff_ne_none
  · exact stop ▸ Option.isSome_iff_ne_none
  · exact start ▸ Option.isSome_iff_ne_none
  · exact proof ▸ Option.isSome_iff_ne_none
  · refine gauges ▸ ?_
    rw [Bool.or_eq_true, decide_eq_true_iff, anyReject_iff]
  · exact unseen ▸ Iff.rfl
  · exact noData ▸ h3
  · refine blanked ▸ ?_
    rw [Bool.and_eq_true, decide_eq_true_iff, beq_iff_eq]
  · exact partials ▸ decide_eq_true_iff

end Sys2Proof.Machine
end

section
/-! PROOFS. The marks of an event (R117, R138–R141): the cells of a range that take a mark, the division of a window's
range at the die cell, and the pending mark list. -/

namespace Sys2Proof.Machine

/-! ## Marks on cells (R117) -/

/-- A mark of a kind that a cell has leaves the more severe consequence. -/
theorem joinMark_some (c d : Consequence) : joinMark c (some d) =
    some (if c = .scrap ∨ d = .scrap then .scrap else if c = .hold ∨ d = .hold then .hold else .note) := by
  cases c <;> cases d <;> rfl

/-! ## Marks on the cells of a range (R139) -/

/-- A cell of the range takes marks when it is open. -/
theorem openInRange_iff (first : Word32) (n : Nat) (c : Cell) :
    openInRange first n c = true ↔ (c.number - first).toNat < n ∧ c.state ≠ .closed := by
  rw [openInRange, Bool.and_eq_true, isOpen_iff, inRange, decide_eq_true_iff]

/-- A number at a distance from the first cell of a range. -/
theorem toNat_sub_eq_iff (n first : Word32) (m : Nat) :
    (n - first).toNat = m ↔ m < 2 ^ 32 ∧ first + BitVec.ofNat 32 m = n := by
  constructor
  · rintro rfl
    refine ⟨(n - first).isLt, ?_⟩
    rw [BitVec.ofNat_toNat, BitVec.setWidth_eq, BitVec.add_comm, BitVec.sub_add_cancel]
  · rintro ⟨hm, rfl⟩
    rw [BitVec.add_comm, BitVec.add_sub_cancel, BitVec.toNat_ofNat, Nat.mod_eq_of_lt hm]

/-- The places in a range of the cells of a ring that take marks: their distances from its first cell. -/
def takenPlaces (first : Word32) (n : Nat) (r : Ring) : List Nat :=
  (r.filter fun e => openInRange first n e.2).map fun e => (e.2.number - first).toNat

/-- A place is taken when the ring holds its cell open. -/
theorem mem_takenPlaces_iff {r : Ring} (hr : r.wf = true) (first : Word32) (n m : Nat) :
    m ∈ takenPlaces first n r ↔
      m < n ∧ m < 2 ^ 32 ∧ ∃ c : Cell, r.cell (first + BitVec.ofNat 32 m) = some c ∧ c.state ≠ .closed := by
  simp only [takenPlaces, List.mem_map, List.mem_filter, openInRange_iff]
  constructor
  · rintro ⟨e, ⟨he, hlt, hopen⟩, rfl⟩
    obtain ⟨hm, hnumber⟩ := (toNat_sub_eq_iff e.2.number first _).1 rfl
    exact ⟨hlt, hm, e.2, (congrArg r.cell hnumber).trans (Ring.cell_of_mem hr he), hopen⟩
  · rintro ⟨hlt, hm, c, hcell, hopen⟩
    have hplace : (c.number - first).toNat = m := (toNat_sub_eq_iff ..).2 ⟨hm, (Ring.number_of_cell hcell).symm⟩
    exact ⟨_, ⟨Ring.mem_of_cell hcell, hplace ▸ hlt, hopen⟩, hplace⟩

/-- No place is taken twice. -/
theorem takenPlaces_nodup {r : Ring} (hr : r.wf = true) (first : Word32) (n : Nat) : (takenPlaces first n r).Nodup := by
  obtain ⟨hsorted, hslots⟩ := (Ring.wf_iff r).1 hr
  refine List.pairwise_map.2 ((hsorted.imp_of_mem fun {x y} hx hy hlt heq => ?_).filter _)
  have hnumber : x.2.number = y.2.number := by
    obtain ⟨-, hx⟩ := (toNat_sub_eq_iff x.2.number first _).1 heq
    rw [← hx]
    exact ((toNat_sub_eq_iff y.2.number first _).1 rfl).2
  rw [(hslots x hx).2, (hslots y hy).2, hnumber] at hlt
  exact Nat.lt_irrefl _ hlt

/-- Cells 4096 apart share a ring slot. -/
theorem slotOf_add_ringSlots (n : Word32) : slotOf (n + 4096#32) = slotOf n := by
  simp only [slotOf, Config.ringSlots, BitVec.toNat_add]
  have : (4096#32).toNat = 4096 := rfl
  omega

/-- A range of which every cell is held is not longer than the ring. -/
theorem length_le_of_held {r : Ring} {first : Word32} {n : Nat}
    (h : ∀ m < n, ∃ c : Cell, r.cell (first + BitVec.ofNat 32 m) = some c) : n ≤ 4096 := by
  refine Nat.le_of_not_lt fun hlong => ?_
  obtain ⟨c, hc⟩ := h 0 (by omega)
  obtain ⟨d, hd⟩ := h 4096 (by omega)
  obtain ⟨hcslot, hcnumber⟩ := (Ring.cell_eq_some_iff ..).1 hc
  obtain ⟨hdslot, hdnumber⟩ := (Ring.cell_eq_some_iff ..).1 hd
  have hsame : d = c := by
    rw [slotOf_add_ringSlots] at hdslot
    rw [BitVec.add_zero, hdslot] at hcslot
    exact Option.some.inj hcslot
  rw [hsame, hcnumber] at hdnumber
  exact absurd ((BitVec.add_right_inj first).1 hdnumber) (by decide)

/-- Fewer cells than the range has take the mark just when some cell of it is not held open. -/
theorem countP_openInRange_lt_iff {r : Ring} (hr : r.wf = true) (first : Word32) (n : Nat) :
    r.countP (fun e => openInRange first n e.2) < n ↔
      ∃ m : Nat, m < n ∧ ∀ c : Cell, r.cell (first + BitVec.ofNat 32 m) = some c → c.state = .closed := by
  have hcount : r.countP (fun e => openInRange first n e.2) = (takenPlaces first n r).length := by
    rw [takenPlaces, List.length_map, List.countP_eq_length_filter]
  have hmem := mem_takenPlaces_iff hr first n
  have hnodup := takenPlaces_nodup hr first n
  rw [hcount]
  constructor
  · intro hlt
    refine Classical.byContradiction fun hnone => ?_
    have hheld : ∀ m < n, ∃ c : Cell, r.cell (first + BitVec.ofNat 32 m) = some c ∧ c.state ≠ .closed := fun m hm =>
      Classical.byContradiction fun hrefused => hnone ⟨m, hm, fun c hcell =>
        Classical.byContradiction fun hopen => hrefused ⟨c, hcell, hopen⟩⟩
    have hn : n ≤ 4096 := length_le_of_held fun m hm => (hheld m hm).imp fun _ h => h.1
    have hsub : List.range n ⊆ takenPlaces first n r := fun m hm =>
      have hm := List.mem_range.1 hm
      (hmem m).2 ⟨hm, by omega, hheld m hm⟩
    have hle := List.nodup_range.length_le_of_subset hsub
    rw [List.length_range] at hle
    omega
  · rintro ⟨m, hm, hclosed⟩
    have hnot : m ∉ takenPlaces first n r := fun h => by
      obtain ⟨-, -, c, hc, hopen⟩ := (hmem m).1 h
      exact hopen (hclosed c hc)
    have hsub : m :: takenPlaces first n r ⊆ List.range n := by
      intro j hj
      rcases List.mem_cons.1 hj with rfl | hj
      · exact List.mem_range.2 hm
      · exact List.mem_range.2 ((hmem j).1 hj).1
    have hle := (List.nodup_cons.2 ⟨hnot, hnodup⟩).length_le_of_subset hsub
    rw [List.length_range, List.length_cons] at hle
    omega

/-- The ring of a strand after a range of it was marked. -/
def markedRing (k : MarkKind) (c : Consequence) (first : Word32) (n : Nat) : Ring → Ring :=
  Ring.onCells (openInRange first n) (Cell.mark k c)

/-- Marking a range changes the ring, and counts when fewer cells than the range has took the mark. -/
theorem markImmediate_eq (k : MarkKind) (c : Consequence) (first : Word32) (n : Nat) (t : Fin 4) (s : State) :
    markImmediate k c first n t s =
      if (s.lmp.rings[t]).countP (fun e => openInRange first n e.2) < n then
        countStrand t .markTruncated (s.modRing t (markedRing k c first n))
      else s.modRing t (markedRing k c first n) := rfl

/-- Marking a range changes the ring and perhaps the counters. -/
theorem markImmediate_frame (k : MarkKind) (c : Consequence) (first : Word32) (n : Nat) (t : Fin 4) (s : State) :
    markImmediate k c first n t s =
      { s.modRing t (markedRing k c first n) with ctb := (markImmediate k c first n t s).ctb } := by
  rw [markImmediate_eq]
  split
  · exact count_eq _ _
  · rfl

/-- The length map after a range was marked. -/
theorem markImmediate_lmp (k : MarkKind) (c : Consequence) (first : Word32) (n : Nat) (t : Fin 4) (s : State) :
    (markImmediate k c first n t s).lmp = (s.modRing t (markedRing k c first n)).lmp :=
  (congrArg State.lmp (markImmediate_frame k c first n t s)).trans rfl

/-- A cell of the ring after its range was marked. -/
theorem cell_markedRing (k : MarkKind) (c : Consequence) (first : Word32) (n : Nat) (r : Ring) (m : Word32) :
    (markedRing k c first n r).cell m =
      (r.cell m).map fun x => if (m - first).toNat < n ∧ x.state ≠ .closed then x.mark k c else x := by
  rw [markedRing, Ring.cell_onCells]
  refine Option.map_congr fun x hx => ?_
  obtain rfl := Ring.number_of_cell hx
  simp only [Cell.changed, openInRange_iff]
  rfl

/-! ## Marks of an event (R138) -/

/-- The first cell of a range is at or below its last. -/
theorem ediv_cellLength_mono {a b : Int} (h : a ≤ b) (length : Nat) : a / (length : Int) ≤ b / length := by
  rcases Nat.eq_zero_or_pos length with rfl | hpos
  · simp
  · exact Int.ediv_le_ediv (by exact_mod_cast hpos) h

/-- A disabled window places no mark. -/
theorem placeMark_disabled {k : MarkKind} {s : State} {g : Geometry} (hg : s.lmp.geometry = some g)
    (h : ((servingDie s).markWindow k).endOff < ((servingDie s).markWindow k).startOff) : placeMark k s = s := by
  simp only [placeMark, hg, h, if_true]

/-- An enabled window's range, its immediate part up to the die cell and its pending part after it. -/
theorem placeMark_enabled {k : MarkKind} {s : State} {g : Geometry} (hg : s.lmp.geometry = some g)
    (h : ((servingDie s).markWindow k).startOff ≤ ((servingDie s).markWindow k).endOff) :
    let w := (servingDie s).markWindow k
    let md := g.material s.pos.station + g.dieToStation
    let first := g.cellAt (md + w.startOff)
    let last := g.cellAt (md + w.endOff)
    let die := g.dieCell s.pos.station
    let u := if die < first then s
      else forEach (usedStrands s) (markImmediate k w.consequence (seqOf first) (min last die - first + 1).toNat) s
    placeMark k s = if die < last then
        addPending
          { kind := k, consequence := w.consequence, first := seqOf (max first (die + 1)), last := seqOf last } u
      else u := by
  intro w md first last die u
  have hle : first ≤ last := ediv_cellLength_mono (Int.add_le_add_left h md) g.cellLength
  have hnone : (min last die - first + 1).toNat = 0 ↔ die < first := by omega
  simp only [placeMark, hg, Int.not_lt.2 h, if_false]
  change (if die < last then addPending _ (if (min last die - first + 1).toNat = 0 then s else _)
    else if (min last die - first + 1).toNat = 0 then s else _) = _
  simp only [hnone]
  rfl

/-! ## The pending mark list (R140, R141) -/

/-- A new entry goes behind every entry whose first cell is at or below its own. -/
theorem insertPending_between {e : PendingMark} {before after : List PendingMark}
    (hbefore : ∀ f ∈ before, cellLe f.first e.first = true)
    (hafter : ∀ f ∈ after.head?, cellLe f.first e.first = false) :
    insertPending e (before ++ after) = before ++ e :: after := by
  induction before with
  | nil =>
    cases after with
    | nil => rfl
    | cons f after => simp [insertPending, hafter f rfl]
  | cons f before ih =>
    obtain ⟨hf, hbefore⟩ := List.forall_mem_cons.1 hbefore
    simp [insertPending, hf, ih hbefore]

/-- Within half of the cell numbers from a base, cells stand in the order of their distances from it. -/
theorem cellLe_eq {a b base : Word32} (ha : (a - base).toNat < 2 ^ 31) (hb : (b - base).toNat < 2 ^ 31) :
    cellLe a b = decide ((a - base).toNat ≤ (b - base).toNat) := by
  refine decide_eq_decide.2 ?_
  have h : b - a = (b - base) - (a - base) := by bv_omega
  rw [h, BitVec.toInt_eq_toNat_cond, BitVec.toNat_sub]
  omega

/-- An entry passed in the search for the greatest last cell: it is taken unless the one kept is above it. -/
def mergeStep (best : Option (Word32 × Nat)) (e : PendingMark × Nat) : Option (Word32 × Nat) :=
  match best with
  | none => some (e.1.last, e.2)
  | some b => if cellLe b.1 e.1.last then some (e.1.last, e.2) else some b

/-- The entry a merge goes into is left by the entries of the list, head to tail. -/
theorem mergeIndex_eq (l : List PendingMark) : mergeIndex l = (l.zipIdx.foldl mergeStep none).elim 0 (·.2) := rfl

/-- The entry kept is one of those passed. -/
theorem foldl_mergeStep_mem (l : List (PendingMark × Nat)) {best b : Option (Word32 × Nat)}
    (h : l.foldl mergeStep best = b) : b = best ∨ ∃ e ∈ l, b = some (e.1.last, e.2) := by
  induction l generalizing best with
  | nil => exact .inl h.symm
  | cons e l ih =>
    rcases ih h with hb | ⟨x, hx, hb⟩
    · have hstep : mergeStep best e = best ∨ mergeStep best e = some (e.1.last, e.2) := by
        unfold mergeStep
        split
        · exact .inr rfl
        · split
          · exact .inr rfl
          · exact .inl rfl
      exact hstep.imp hb.trans fun he => ⟨e, List.mem_cons_self, hb.trans he⟩
    · exact .inr ⟨x, List.mem_cons_of_mem _ hx, hb⟩

/-- Entries whose last cells are below the one kept leave it. -/
theorem foldl_mergeStep_kept {l : List (PendingMark × Nat)} {b : Word32 × Nat}
    (h : ∀ e ∈ l, cellLe b.1 e.1.last = false) : l.foldl mergeStep (some b) = some b := by
  induction l with
  | nil => rfl
  | cons e l ih =>
    obtain ⟨he, hl⟩ := List.forall_mem_cons.1 h
    rw [List.foldl_cons, mergeStep, he]
    exact ih hl

/-- The merge goes into an entry that no earlier one's last cell is above, and every later one's is below. -/
theorem mergeIndex_between {old : PendingMark} {before after : List PendingMark}
    (hbefore : ∀ f ∈ before, cellLe f.last old.last = true)
    (hafter : ∀ f ∈ after, cellLe old.last f.last = false) :
    mergeIndex (before ++ old :: after) = before.length := by
  have htaken : mergeStep (before.zipIdx.foldl mergeStep none) (old, before.length) =
      some (old.last, before.length) := by
    rcases foldl_mergeStep_mem before.zipIdx rfl with hb | ⟨e, he, hb⟩
    · rw [hb]
      rfl
    · rw [hb, mergeStep, hbefore _ (List.fst_mem_of_mem_zipIdx he)]
      rfl
  have hkept : (after.zipIdx (before.length + 1)).foldl mergeStep (some (old.last, before.length)) =
      some (old.last, before.length) :=
    foldl_mergeStep_kept fun e he => hafter _ (List.fst_mem_of_mem_zipIdx he)
  rw [mergeIndex_eq, List.zipIdx_append, List.foldl_append, Nat.zero_add, List.zipIdx_cons, List.foldl_cons, htaken,
    hkept]
  rfl

/-- The place of a consequence in severity. -/
def Consequence.rank : Consequence → Nat
  | .scrap => 2
  | .hold => 1
  | .note => 0

/-- More severe is of higher rank. -/
theorem moreSevere_iff (a b : Consequence) : a.moreSevere b = true ↔ b.rank < a.rank := by
  cases a <;> cases b <;> decide

/-- The worse of two consequences is the one of higher rank. -/
theorem worse_eq_ite (a b : Consequence) : a.worse b = if b.rank < a.rank then a else b := by
  cases a <;> cases b <;> rfl

/-- With room the new entry is put into the list. -/
theorem addPending_room {e : PendingMark} {s : State} (h : s.emu.pending.length < 16) :
    addPending e s = setMarks (insertPending e s.emu.pending) s := if_pos h

/-- Into a full list the new entry is merged with the one at the merge index. -/
theorem addPending_full {e old : PendingMark} {s : State} (h : 16 ≤ s.emu.pending.length)
    (hold : s.emu.pending[mergeIndex s.emu.pending]? = some old) :
    addPending e s = raiseAlarm .markMerged 0 (countGlobal .markMerged
      (setMarks (insertPending (e.merge old) (s.emu.pending.eraseIdx (mergeIndex s.emu.pending))) s)) := by
  have hfull : ¬ s.emu.pending.length < Config.pendingMarks := Nat.not_lt.2 h
  simp only [addPending, if_neg hfull, hold]

/-- The merged entry, where both entries lie within half of the cell numbers from a base. -/
theorem merge_eq {new old : PendingMark} {base : Word32} (hnewLast : (new.last - base).toNat < 2 ^ 31)
    (hnewFirst : (new.first - base).toNat < 2 ^ 31) (holdFirst : (old.first - base).toNat < 2 ^ 31)
    (holdLast : (old.last - base).toNat < 2 ^ 31) :
    new.merge old =
      { kind := if old.consequence.rank < new.consequence.rank then new.kind else old.kind
        consequence := if old.consequence.rank < new.consequence.rank then new.consequence else old.consequence
        first := if (new.first - base).toNat ≤ (old.first - base).toNat then new.first else old.first
        last := if (new.last - base).toNat ≤ (old.last - base).toNat then old.last else new.last } := by
  simp only [PendingMark.merge, moreSevere_iff, worse_eq_ite, cellMin, cellMax, cellLe_eq hnewFirst holdFirst,
    cellLe_eq hnewLast holdLast, decide_eq_true_iff]

/-- The entry at an index that no earlier last cell is above, and every later one is below, is the one merged into. -/
theorem mergeIndex_of_greatest {l : List PendingMark} {base : Word32} {i : Nat} {old : PendingMark}
    (hi : l[i]? = some old)
    (hhalf : ∀ f ∈ l, (f.last - base).toNat < 2 ^ 31)
    (hgreatest : ∀ (j : Nat) (f : PendingMark), l[j]? = some f →
      (f.last - base).toNat ≤ (old.last - base).toNat ∧
        (i < j → (f.last - base).toNat < (old.last - base).toNat)) :
    mergeIndex l = i := by
  obtain ⟨hlt, hget⟩ := List.getElem?_eq_some_iff.1 hi
  have hsplit : l.take i ++ old :: l.drop (i + 1) = l := by
    rw [← hget, ← List.drop_eq_getElem_cons hlt, List.take_append_drop]
  have hold := hhalf old (List.mem_of_getElem? hi)
  have hbetween := mergeIndex_between (old := old) (before := l.take i) (after := l.drop (i + 1))
    (fun f hf => by
      obtain ⟨j, hj⟩ := List.getElem?_of_mem (List.mem_of_mem_take hf)
      rw [cellLe_eq (hhalf f (List.mem_of_mem_take hf)) hold, decide_eq_true_iff]
      exact (hgreatest j f hj).1)
    (fun f hf => by
      obtain ⟨j, hj⟩ := List.getElem?_of_mem hf
      rw [List.getElem?_drop] at hj
      rw [cellLe_eq hold (hhalf f (List.mem_of_mem_drop hf)), decide_eq_false_iff_not, Nat.not_le]
      exact (hgreatest _ f hj).2 (by omega))
  rw [hsplit, List.length_take, Nat.min_eq_left (Nat.le_of_lt hlt)] at hbetween
  exact hbetween

/-- Settles O29: the marked ring and its count, the join of marks, the division of a window's range at the die cell,
and the pending list by its room. -/
theorem marksReachTheOpenCellsOfTheirRange : Obligations.MarksReachTheOpenCellsOfTheirRange := by
  refine ⟨fun k c first n t s => ?_, fun c d => ⟨rfl, joinMark_some c d⟩, fun k s g hg => ?_,
    fun e before after => insertPending_between, fun e s => ⟨addPending_room, ?_⟩⟩
  · intro u marked refused
    have hlmp : u.lmp = (s.modRing t (markedRing k c first n)).lmp := markImmediate_lmp k c first n t s
    have hmarked : marked = s.modRing t (markedRing k c first n) := by
      simp only [marked, hlmp]
      rfl
    refine ⟨fun m => ?_, fun i hi => ?_, ?_, fun hr => ?_⟩
    · rw [hlmp, modRing_ring_self, cell_markedRing]
    · rw [hlmp, modRing_ring, if_neg hi.symm]
    · rw [hmarked]
      exact markImmediate_frame k c first n t s
    · have hrefused : _ ↔ refused := countP_openInRange_lt_iff hr first n
      rw [hmarked]
      exact ⟨fun h => if_pos (hrefused.2 h), fun h => if_neg (mt hrefused.1 h)⟩
  · intro w md first last die number
    have hw : w = (servingDie s).markWindow k := by cases k <;> rfl
    refine ⟨fun h => placeMark_disabled hg (hw ▸ h), fun h => ?_⟩
    have hplaced := placeMark_enabled hg (hw ▸ h)
    rw [← hw] at hplaced
    exact ⟨fun hlast => hplaced.trans (if_neg (Int.not_lt.2 hlast)), fun hdie => hplaced.trans (if_pos hdie)⟩
  · intro hfull base i old hi place hhalf hgreatest hlast hfirst hold rank severe merged
    have hrank : rank = Consequence.rank := by
      funext c
      cases c <;> rfl
    have hindex : mergeIndex s.emu.pending = i := mergeIndex_of_greatest hi hhalf hgreatest
    have hmerged : e.merge old = merged := by
      rw [merge_eq hlast hfirst hold (hhalf old (List.mem_of_getElem? hi)), ← hrank]
    rw [addPending_full hfull (hindex ▸ hi), hindex, hmerged]
    rfl

end Sys2Proof.Machine
end

section
/-! PROOFS. An advance of the length map (R118–R121, R142, R143): the recycling of cells with the marks they take, the
entry of cells at the station, and the crossing of the saw. -/

namespace Sys2Proof.Machine

/-! ## Recycling (R119) -/

/-- The ring slots after a cell was recycled. -/
theorem recycleIn_at {t : Fin 4} {s : State} (h : (s.lmp.rings[t]).wf = true) (n : Word32) (k : Nat) :
    ((recycleIn n t s).lmp.rings[t]).at k =
      if slotOf n = k then some (Cell.made n .approach false (servingDie s).entry.tag) else (s.lmp.rings[t]).at k := by
  rw [recycleIn, modRing_ring_self, Ring.at_put _ _ _ ((Ring.wf_iff _).1 h).1]

/-- The recycled cell is a new one in APPROACH. -/
theorem recycleIn_cell {t : Fin 4} {s : State} (h : (s.lmp.rings[t]).wf = true) (n : Word32) :
    ((recycleIn n t s).lmp.rings[t]).cell n = some (Cell.made n .approach false (servingDie s).entry.tag) := by
  rw [recycleIn, modRing_ring_self]
  exact Ring.cell_put h (Cell.made n .approach false (servingDie s).entry.tag)

/-! ## Station entry (R120) -/

/-- A cell that the station enters becomes LIVE from APPROACH or UNSEEN. -/
theorem enter_eq (c : Cell) :
    c.enter = if c.state = .approach ∨ c.state = .unseen then { c with state := .live } else c := by
  unfold Cell.enter
  cases h : c.state <;> rfl

/-- A cell in a ring in use, after the station's entry. -/
theorem enterCell_cell {n : Word32} {t : Fin 4} {s : State} {c : Cell} (h : (s.lmp.rings[t]).cell n = some c)
    (ht : t ∈ usedStrands s) : ((enterCell n s).lmp.rings[t]).cell n = some c.enter := by
  have hnumber : c.enter.number = c.number := by
    rw [enter_eq]
    split <;> rfl
  rw [enterCell, forEach_modRing (usedStrands_nodup s), if_pos ht, Ring.cell_onCell h, ← hnumber]

/-! ## Marks of a recycled cell (R142, R143) -/

/-- A ring whose cell n takes a change while it is open. -/
def changeOpen (n : Word32) (f : Cell → Cell) : Ring → Ring := Ring.onCells (fun x => x.number == n && x.isOpen) f

/-- The change of an open cell, for one that keeps the number. -/
theorem cell_changeOpen {r : Ring} {n : Word32} {c : Cell} (h : r.cell n = some c) (hopen : c.state ≠ .closed)
    {f : Cell → Cell} (hf : (f c).number = c.number) : (changeOpen n f r).cell n = some (f c) := by
  have hselected : (c.number == n && c.isOpen) = true := by
    rw [Bool.and_eq_true, beq_iff_eq, isOpen_iff]
    exact ⟨Ring.number_of_cell h, hopen⟩
  rw [changeOpen, Ring.cell_onCells, h, Option.map_some, Cell.changed, if_pos hselected, ← hf]

/-- The strands in use after a change of the rings. -/
theorem usedStrands_of_only {s u : State} (h : Only [.rings] s u) : usedStrands u = usedStrands s := by
  have hdies : u.dlb.slots = s.dlb.slots := h.kept .dies
  unfold usedStrands servingSlot
  rw [hdies]

/-- The mark of one entry, offered in every ring in use. -/
theorem offerMark_cell {n : Word32} {t : Fin 4} {s : State} {c : Cell} (h : (s.lmp.rings[t]).cell n = some c)
    (hopen : c.state ≠ .closed) (ht : t ∈ usedStrands s) (k : MarkKind) (q : Consequence) :
    ((forEach (usedStrands s) (offerMark n k q) s).lmp.rings[t]).cell n = some (c.mark k q) := by
  have hrings := forEach_modRing (usedStrands_nodup s) (fun _ => changeOpen n (Cell.mark k q)) t s
  rw [if_pos ht] at hrings
  exact (congrArg (Ring.cell · n) hrings).trans (cell_changeOpen h hopen rfl)

/-- The marks of several entries, offered in list order. -/
theorem offerMarks_cell {n : Word32} {t : Fin 4} (l : List PendingMark) {s : State} {c : Cell}
    (h : (s.lmp.rings[t]).cell n = some c) (hopen : c.state ≠ .closed) (ht : t ∈ usedStrands s) :
    ((forEach l (fun e u => forEach (usedStrands u) (offerMark n e.kind e.consequence) u) s).lmp.rings[t]).cell n =
      some (l.foldl (fun x e => x.mark e.kind e.consequence) c) := by
  induction l generalizing s c with
  | nil => exact h
  | cons e l ih =>
    have hused : usedStrands (forEach (usedStrands s) (offerMark n e.kind e.consequence) s) = usedStrands s :=
      usedStrands_of_only (Only.fold (fun t u hu => offerMark_only hu) Only.rfl)
    exact ih (offerMark_cell h hopen ht e.kind e.consequence) hopen (hused ▸ ht)

/-- A recycled cell takes the marks of the pending entries that cover it. -/
theorem offerPending_cell {n : Word32} {t : Fin 4} {s : State} {c : Cell} (h : (s.lmp.rings[t]).cell n = some c)
    (hopen : c.state ≠ .closed) (ht : t ∈ usedStrands s) :
    ((offerPending n s).lmp.rings[t]).cell n =
      some ((s.emu.pending.filter (·.covers n)).foldl (fun x e => x.mark e.kind e.consequence) c) :=
  offerMarks_cell _ h hopen ht

/-- Entries leave the pending list with their last cell. -/
theorem offerPending_pending (n : Word32) (s : State) :
    (offerPending n s).emu.pending = s.emu.pending.filter (·.last ≠ n) := by
  have hmarked : Only [.rings] s (forEach (s.emu.pending.filter (·.covers n))
      (fun e u => forEach (usedStrands u) (offerMark n e.kind e.consequence) u) s) :=
    Only.fold (fun e u hu => Only.fold (fun t v hv => offerMark_only hv) hu) Only.rfl
  exact congrArg (List.filter _) (hmarked.kept .marks)

/-- Proof sampling selects a cell by its number under the mask. -/
theorem proofSelects_iff (n : Word32) (s : State) :
    proofSelects n s = true ↔
      s.emu.proofEnable = true ∧ n &&& s.emu.proofMask = s.emu.proofCompare &&& s.emu.proofMask := by
  rw [proofSelects, Bool.and_eq_true, beq_iff_eq]

/-- A PROOF mark has the consequence SCRAP, whatever stood before. -/
theorem joinMark_scrap (old : Option Consequence) : joinMark .scrap old = some .scrap := by
  rcases old with _ | d
  · rfl
  · cases d <;> rfl

/-- A recycled cell takes a PROOF mark when proof sampling selects it and its strand is in the strand set. -/
theorem offerProof_cell {n : Word32} {t : Fin 4} {s : State} {c : Cell} (h : (s.lmp.rings[t]).cell n = some c)
    (hopen : c.state ≠ .closed) (ht : t ∈ usedStrands s) :
    ((offerProof n s).lmp.rings[t]).cell n =
      some (if proofSelects n s = true ∧ s.emu.proofStrands.getLsbD t.val = true then c.markProof else c) := by
  unfold offerProof
  split
  · next hselected =>
    have hrings := forEach_modRing ((usedStrands_nodup s).filter fun t => s.emu.proofStrands.getLsbD t.val)
      (fun _ => changeOpen n Cell.markProof) t s
    refine (congrArg (Ring.cell · n) hrings).trans ?_
    simp only [List.mem_filter, ht, true_and, hselected]
    split
    · exact cell_changeOpen h hopen rfl
    · exact h
  · next hnot => rw [h, if_neg fun hboth => hnot hboth.1]

/-! ## An advance (R118) -/

/-- Without a geometry, or outside INSPECTING, an advance leaves the map. -/
theorem advanceMap_idle {s : State} (h : s.lmp.geometry = none ∨ s.dlb.service ≠ .inspecting) (old new : Nat) :
    advanceMap old new s = s := by
  unfold advanceMap
  split
  · rfl
  · next g hg =>
    have hnot : inspecting s ≠ true := fun hi => h.elim (fun hnone => by simp [hnone] at hg)
      fun hother => hother (of_decide_eq_true hi)
    rw [if_neg hnot]

/-- While INSPECTING an advance works its three stages. -/
theorem advanceMap_inspecting {s : State} {g : Geometry} (hg : s.lmp.geometry = some g)
    (h : s.dlb.service = .inspecting) (old new : Nat) :
    advanceMap old new s =
      forEach (cellsAfter (g.sawCell old - 1) (g.sawCell new - 1)) crossCell
        (forEach (cellsAfter (g.stationCell old) (g.stationCell new)) enterCell
          (forEach (cellsAfter (g.dieCell old) (g.dieCell new)) recycleCell s)) := by
  have hi : inspecting s = true := decide_eq_true h
  simp only [advanceMap, hg, hi, if_true]

/-- Settles O30: the ring rules of recycling, entry and the saw, the stages of an advance, and the marks that a recycled
cell is offered. -/
theorem cellsAreRecycledEnteredAndClosed : Obligations.CellsAreRecycledEnteredAndClosed := by
  refine ⟨fun t n s hr => ⟨⟨recycleIn_cell hr n, fun k hk => (recycleIn_at hr n k).trans (if_neg hk.symm)⟩,
      fun c hcell ht => ?_, fun c hcell hopen => ⟨?_, closeCell_open hcell hopen⟩, closeCell_left⟩,
    fun old new s => ⟨fun h => advanceMap_idle h old new, fun g hg h => advanceMap_inspecting hg h old new⟩,
    fun s => ⟨usedStrands_pairwise s, mem_usedStrands_iff s⟩,
    fun n s => ⟨offerPending_pending n s, fun t c ht hcell hopen => ⟨offerPending_cell hcell hopen ht, ?_⟩⟩⟩
  · rw [← enter_eq]
    exact enterCell_cell hcell ht
  · rw [modRing_ring_self, Ring.cell_onCell hcell]
  · simp only [offerProof_cell hcell hopen ht, proofSelects_iff, and_assoc, Cell.markProof, joinMark_scrap]

end Sys2Proof.Machine
end

section
/-! PROOFS. The filters of the event lines (R132, R145): candidates that stand and candidates that have lasted, what the
raw level makes of a filter, and the edge that a turned level is. -/

namespace Sys2Proof.Machine

/-! ## Raw levels (8.1) -/

/-- The raw level that was set. -/
@[simp] theorem level_setLevel (p : Pins) (l : EventLine) (v : Bool) : (p.setLevel l v).level l = v := by
  cases l <;> rfl

/-! ## Filters -/

/-- Changes of a line's filter that agree on it leave the same state. -/
theorem modLine_congr {l : EventLine} {f g : LineFilter → LineFilter} {s : State}
    (h : f s.emu.lines[lineIndex l] = g s.emu.lines[lineIndex l]) : modLine l f s = modLine l g s :=
  congrArg (fun x => { s with emu := { s.emu with lines := s.emu.lines.set (lineIndex l) x } }) h

/-- Two changes of a line's filter are one. -/
theorem modLine_modLine (l : EventLine) (f g : LineFilter → LineFilter) (s : State) :
    modLine l g (modLine l f s) = modLine l (g ∘ f) s :=
  congrArg (fun v => { s with emu := { s.emu with lines := v } }) (upd_upd ..)

/-! ## Edges (8.1, R132) -/

/-- The state once line l's filtered level has turned: its candidate is gone. -/
def turnLine (l : EventLine) (level : Bool) (s : State) : State :=
  modLine l (fun y => { y with level := level, candidate := none }) s

/-- The work of an edge of line l to a level: BILLET, HANDOVER and SAW have events on their rising edges alone. -/
def edgeWork (l : EventLine) (level : Bool) (s : State) : State :=
  match l, level with
  | .billet, true => takeEvent .weld s
  | .pressRun, true => takeEvent .start s
  | .pressRun, false => takeEvent .pressRunFalling s
  | .handover, true => takeEvent .handover s
  | .saw, true => takeEvent .saw s
  | _, _ => s

/-- An edge turns the filtered level and then works its event. -/
theorem takeEdge_eq (l : EventLine) (s : State) :
    takeEdge l s =
      edgeWork l (!(s.emu.lines[lineIndex l]).level) (turnLine l (!(s.emu.lines[lineIndex l]).level) s) := by
  unfold takeEdge
  generalize (!(s.emu.lines[lineIndex l]).level) = level
  cases l <;> cases level <;> rfl

/-- An edge leaves its line without a candidate. -/
theorem takeEdge_candidate (l : EventLine) (s : State) : ((takeEdge l s).emu.lines[lineIndex l]).candidate = none := by
  have hturned (level : Bool) : ((turnLine l level s).emu.lines[lineIndex l]).candidate = none :=
    congrArg LineFilter.candidate (upd_get_self ..)
  unfold takeEdge
  dsimp only
  split
  · next k _ =>
    have hkept (u : State) : (takeEvent k u).emu.lines = u.emu.lines :=
      (takeEvent_only (l := dieParts) Only.rfl).kept .lines
    rw [hkept]
    exact hturned _
  · exact hturned _

/-! ## Candidates (R132, R145) -/

/-- A filter without a candidate that has lasted is left. -/
theorem settleLine_early {l : EventLine} {s : State}
    (h : ∀ c, (s.emu.lines[lineIndex l]).candidate = some c → s.now < c.start + c.time) : settleLine l s = s := by
  unfold settleLine
  split
  · next c hc => exact if_neg (Nat.not_le.2 (h c hc))
  · rfl

/-- A candidate that has lasted gives its edge. -/
theorem settleLine_lasted {l : EventLine} {s : State} {c : Candidate}
    (hc : (s.emu.lines[lineIndex l]).candidate = some c) (hdue : c.start + c.time ≤ s.now) :
    settleLine l s = takeEdge l s := by
  simp only [settleLine, hc, if_pos hdue]

/-- Once a candidate that has lasted has given its edge, nothing is left to settle. -/
theorem settleLine_settled (l : EventLine) (s : State) : settleLine l (settleLine l s) = settleLine l s := by
  by_cases h : ∀ c, (s.emu.lines[lineIndex l]).candidate = some c → s.now < c.start + c.time
  · rw [settleLine_early h, settleLine_early h]
  · simp only [Classical.not_forall, Nat.not_lt] at h
    obtain ⟨c, hc, hdue⟩ := h
    rw [settleLine_lasted hc hdue]
    refine settleLine_early fun d hd => ?_
    rw [takeEdge_candidate] at hd
    cases hd

/-! ## Changes of the raw level (R132, log 30) -/

/-- The candidate of a filter that sees a raw level: none at the filtered level, else the one that stands, or a new one
with the filter time of now. -/
def LineFilter.candidateAt (x : LineFilter) (level : Bool) (now : Nat) : Option Candidate :=
  if level = x.level then none else some (x.candidate.getD { start := now, time := x.time })

/-- The state once line l has a raw level and a candidate. -/
def rawLine (l : EventLine) (level : Bool) (c : Option Candidate) (s : State) : State :=
  modLine l (fun y => { y with candidate := c }) (setPins (s.pins.setLevel l level) s)

/-- The filter of a line that was given a candidate. -/
theorem rawLine_filter (l : EventLine) (level : Bool) (c : Option Candidate) (s : State) :
    (rawLine l level c s).emu.lines[lineIndex l] = { s.emu.lines[lineIndex l] with candidate := c } := upd_get_self ..

/-- A filter follows its raw level. -/
theorem followLine_setLevel (l : EventLine) (level : Bool) (s : State) :
    followLine l (setPins (s.pins.setLevel l level) s) =
      rawLine l level ((s.emu.lines[lineIndex l]).candidateAt level s.now) s := by
  refine modLine_congr ?_
  simp only [setPins, level_setLevel]
  rcases s.emu.lines[lineIndex l] with ⟨time, filtered, candidate⟩
  unfold LineFilter.candidateAt
  split
  · rfl
  · cases candidate <;> rfl

/-- While a reset is in progress a raw level reaches the pins alone. -/
theorem changeLine_inReset {s : State} (h : s.inReset = true) (l : EventLine) (level : Bool) :
    changeLine l level s = { s with pins := s.pins.setLevel l level } := if_pos h

/-- Outside a reset a raw level acts on the settled filter. -/
theorem changeLine_running {s : State} (h : s.inReset = false) (l : EventLine) (level : Bool) :
    changeLine l level s =
      settleLine l (followLine l (setPins ((settleLine l s).pins.setLevel l level) (settleLine l s))) :=
  if_neg (h ▸ Bool.false_ne_true)

/-- A raw level seen by a filter without a candidate that has lasted. -/
theorem changeLine_early {s : State} (hr : s.inReset = false) {l : EventLine}
    (h : ∀ c, (s.emu.lines[lineIndex l]).candidate = some c → s.now < c.start + c.time) (level : Bool) :
    changeLine l level s =
      settleLine l (rawLine l level ((s.emu.lines[lineIndex l]).candidateAt level s.now) s) := by
  rw [changeLine_running hr, settleLine_early h, followLine_setLevel]

/-- A raw level whose candidate has not lasted yet changes the pins and the candidate. -/
theorem changeLine_waits {s : State} (hr : s.inReset = false) {l : EventLine}
    (h : ∀ c, (s.emu.lines[lineIndex l]).candidate = some c → s.now < c.start + c.time) {level : Bool}
    {next : Option Candidate} (hnext : (s.emu.lines[lineIndex l]).candidateAt level s.now = next)
    (hwait : ∀ c, next = some c → s.now < c.start + c.time) : changeLine l level s = rawLine l level next s := by
  rw [changeLine_early hr h, hnext]
  exact settleLine_early fun c hc => hwait c (by rwa [rawLine_filter] at hc)

/-- A filter time of 0 makes a raw level that differs from the filtered one an edge at once. -/
theorem changeLine_unfiltered {s : State} (hr : s.inReset = false) {l : EventLine} {level : Bool}
    (hlevel : level ≠ (s.emu.lines[lineIndex l]).level) (hnone : (s.emu.lines[lineIndex l]).candidate = none)
    (htime : (s.emu.lines[lineIndex l]).time = 0) :
    changeLine l level s = edgeWork l level (turnLine l level (setPins (s.pins.setLevel l level) s)) := by
  have hnext : (s.emu.lines[lineIndex l]).candidateAt level s.now = some { start := s.now, time := 0 } := by
    rw [LineFilter.candidateAt, if_neg hlevel, hnone, htime, Option.getD_none]
  have hturned : (!(s.emu.lines[lineIndex l]).level) = level := Bool.not_eq.2 hlevel.symm
  have hturn (c : Option Candidate) :
      turnLine l level (rawLine l level c s) = turnLine l level (setPins (s.pins.setLevel l level) s) :=
    modLine_modLine ..
  rw [changeLine_early hr (by rw [hnone]; nofun), hnext, settleLine_lasted (by rw [rawLine_filter]) (Nat.le_refl _),
    takeEdge_eq, rawLine_filter, hturned, hturn]

/-- A raw level acts on what is left once a candidate that has lasted has given its edge. -/
theorem changeLine_settled {s : State} (hr : s.inReset = false) (l : EventLine) (level : Bool) :
    changeLine l level (settleLine l s) = changeLine l level s := by
  have hkept : (settleLine l s).inReset = s.inReset :=
    (settleLine_only (l := [.lines] ++ dieParts) Only.rfl).kept .inReset
  rw [changeLine_running hr, changeLine_running (hkept.trans hr), settleLine_settled]

/-- Settles O27: a raw level by the candidate it leaves, an expiry by whether the candidate has lasted. -/
theorem eventLinesAreFiltered : Obligations.EventLinesAreFiltered := by
  refine ⟨fun l level s => ?_, fun l s c hc => ?_, fun l level s hr => ?_⟩
  · intro x changed
    refine ⟨fun hr => congrArg _ (changeLine_inReset hr l level), fun hr hearly => ⟨fun hlevel => ?_,
      fun hlevel hnone htime => ?_, fun c hlevel hc => ?_⟩⟩
    · exact congrArg _ (changeLine_waits hr hearly (if_pos hlevel) nofun)
    · have hnext : x.candidateAt level s.now = some { start := s.now, time := x.time } := by
        rw [LineFilter.candidateAt, if_neg hlevel, hnone, Option.getD_none]
      refine congrArg _ (changeLine_waits hr hearly hnext fun d hd => ?_)
      obtain rfl := Option.some.inj hd
      exact Nat.lt_add_of_pos_right htime
    · have hnext : x.candidateAt level s.now = some c := by
        rw [LineFilter.candidateAt, if_neg hlevel, hc, Option.getD_some]
      exact congrArg _ (changeLine_waits hr hearly hnext fun d hd => hearly d (hc.trans hd))
  · exact ⟨fun hdue => congrArg _ ((settleLine_lasted hc hdue).trans (takeEdge_eq l s)),
      fun hwait => congrArg _ (settleLine_early fun d hd => Option.some.inj (hc.symm.trans hd) ▸ hwait)⟩
  · refine ⟨fun hlevel hnone htime => congrArg _ (changeLine_unfiltered hr hlevel hnone htime), fun c t _ _ ht => ?_⟩
    obtain rfl : settleLine l s = t := Host.Outcome.next.inj ht
    exact congrArg Host.Outcome.next (changeLine_settled hr l level).symm

end Sys2Proof.Machine
end

section
/-! PROOFS. The events of the line (R133, R134, R144, R148, R149, R161, R168, R169): the counting and the record of an
event, its work while INSPECTING, blanking windows, saw cuts, and alarms. -/

namespace Sys2Proof.Machine

/-! ## Counting and reporting (R133, R134) -/

/-- A global count changes the counters alone. -/
theorem countGlobal_frame (c : GlobalCounter) (s : State) : ∃ b : Counters, countGlobal c s = { s with ctb := b } := by
  unfold countGlobal countGlobalBy
  exact ⟨_, count_eq _ s⟩

/-- An event taken while INSPECTING is worked before its record is made. -/
theorem takeEvent_inspecting {s : State} (h : s.dlb.service = .inspecting) (k : EventKind) :
    takeEvent k s =
      offerEvent (eventRecordOf k (eventWork k (countGlobal k.counter s))) (eventWork k (countGlobal k.counter s)) := by
  have hi : inspecting (countGlobal k.counter s) = true := by
    obtain ⟨b, hb⟩ := countGlobal_frame k.counter s
    rw [hb]
    exact decide_eq_true h
  simp only [takeEvent, hi, if_true]

/-- Outside INSPECTING an event is counted and its record offered. -/
theorem takeEvent_idle {s : State} (h : s.dlb.service ≠ .inspecting) (k : EventKind) :
    takeEvent k s = offerEvent (eventRecordOf k (countGlobal k.counter s)) (countGlobal k.counter s) := by
  have hi : ¬ inspecting (countGlobal k.counter s) = true := by
    obtain ⟨b, hb⟩ := countGlobal_frame k.counter s
    rw [hb]
    exact fun hother => h (of_decide_eq_true hother)
  simp only [takeEvent, if_neg hi]

/-- The record of an event is not changed by a count. -/
theorem eventRecordOf_countGlobal (k : EventKind) (c : GlobalCounter) (s : State) :
    eventRecordOf k (countGlobal c s) = eventRecordOf k s := by
  obtain ⟨b, hb⟩ := countGlobal_frame c s
  rw [hb]
  rfl

/-- An event record joins queue B while it has room. -/
theorem offerEvent_room {s : State} (h : s.egs.b.length < 32) (r : EventRecord) :
    offerEvent r s = { s with egs := { s.egs with b := s.egs.b ++ [makeFrame s none (.event r)] } } := if_pos h

/-- A full queue B drops an event record, which is counted. -/
theorem offerEvent_full {s : State} (h : 32 ≤ s.egs.b.length) (r : EventRecord) :
    offerEvent r s = countGlobal .eventRecordsDropped s := if_neg (Nat.not_lt.2 h)

/-! ## Blanking windows (R144) -/

/-- A blank length of 0 opens no window. -/
theorem openBlanking_empty {s : State} (h : (servingDie s).entry.blankLength = 0) : openBlanking s = s := if_pos h

/-- A window joins the tail of the list, the oldest of four going first. -/
theorem openBlanking_opens {s : State} (h : 0 < (servingDie s).entry.blankLength) :
    openBlanking s = { s with emu := { s.emu with
      blanking := (if s.emu.blanking.length < 4 then s.emu.blanking else s.emu.blanking.tail) ++
        [{ start := s.pos.station, stop := s.pos.station + (servingDie s).entry.blankLength }] } } := by
  rw [← List.drop_one]
  exact if_neg (Nat.ne_of_gt h)

/-! ## Saw cuts (R148, R149) -/

/-- A strand in use holds four closing pieces. -/
theorem closingFull_iff (s : State) :
    closingFull s = true ↔ ∃ i ∈ usedStrands s, 4 ≤ (s.pcu.strands[i]).closing.length := by
  unfold closingFull
  rw [List.any_eq_true]
  exact exists_congr fun i => and_congr_right fun _ => decide_eq_true_iff

/-- A cut with a strand's closing pieces full is not taken. -/
theorem takeCut_full {s : State} {g : Geometry} (hg : s.lmp.geometry = some g) (h : closingFull s = true) (m : Nat) :
    takeCut m s = raiseAlarm .sawOverrun 0 (countGlobal .sawOverrun s) := by
  simp only [takeCut, hg, if_pos h]

/-- A cut with room in every strand in use cuts each of them. -/
theorem takeCut_room {s : State} {g : Geometry} (hg : s.lmp.geometry = some g) (h : ¬ closingFull s = true) (m : Nat) :
    takeCut m s = forEach (usedStrands s) (cutStrand (seqOf (g.sawCell m))) s := by
  simp only [takeCut, hg, if_neg h]

/-- What changes of several entries of a vector, each once, leave at an index. -/
theorem forEach_upd {α : Type} {n : Nat} {proj : State → Vector α n} {change : Fin n → State → State}
    {f : Fin n → α → α} (h : ∀ i s, proj (change i s) = upd (proj s) i (f i)) {l : List (Fin n)} (hl : l.Nodup)
    (t : Fin n) (s : State) :
    (proj (forEach l change s))[t] = if t ∈ l then f t (proj s)[t] else (proj s)[t] := by
  induction l generalizing s with
  | nil => rfl
  | cons i l ih =>
    obtain ⟨hi, hl⟩ := List.nodup_cons.1 hl
    refine (ih hl (change i s)).trans ?_
    rw [h, upd_get]
    by_cases hit : i = t
    · subst hit
      simp [hi]
    · simp [hit, Ne.symm hit]

/-- The pieces of a strand cut in cell n: the open piece closes there and a new one begins. -/
def StrandPieces.cutAt (n : Word32) (q : StrandPieces) : StrandPieces :=
  { q with
    closing := q.closing ++ (q.openPiece.map fun p => { piece := p, cut := n : ClosingPiece }).toList
    openPiece := some (Piece.new n) }

/-- A cut changes the pieces of its strand. -/
theorem cutStrand_strands (n : Word32) (t : Fin 4) (s : State) :
    (cutStrand n t s).pcu.strands = upd s.pcu.strands t (StrandPieces.cutAt n) := rfl

/-- Cuts of several strands change nothing but pieces. -/
theorem forEach_cutStrand_frame (n : Word32) (l : List (Fin 4)) (s : State) :
    let u := forEach l (cutStrand n) s
    u = { s with pcu := { s.pcu with strands := u.pcu.strands } } := by
  induction l generalizing s with
  | nil => rfl
  | cons i l ih => exact ih (cutStrand n i s)

/-! ## Alarms (R161, R168, R169) -/

/-- A count does not touch the raised flags. -/
theorem countGlobal_setAlarms (c : GlobalCounter) (x : BitVec 9) (s : State) :
    countGlobal c (setAlarms x s) = setAlarms x (countGlobal c s) := by
  unfold countGlobal countGlobalBy count
  rw [apply_ite (setAlarms x)]
  rfl

/-- A report offered to queue A does not touch the raised flags. -/
theorem offerAlarm_setAlarms (r : AlarmReport) (x : BitVec 9) (s : State) :
    offerAlarm r (setAlarms x s) = setAlarms x (offerAlarm r s) := by
  unfold offerAlarm
  rw [countGlobal_setAlarms]
  rw [apply_ite (setAlarms x)]
  rfl

/-- A flag raised and cleared again leaves the flags as they were. -/
theorem clear_raised {k : AlarmKind} {x : BitVec 9} (h : x.getLsbD k.bit = false) :
    (x ||| k.mask) &&& ~~~k.mask = x := by
  ext i hi
  have hmask : k.mask[i] = decide (i = k.bit) := by simp [AlarmKind.mask, ← BitVec.twoPow_eq]
  rw [BitVec.getElem_and, BitVec.getElem_or, BitVec.getElem_not, hmask]
  by_cases hik : i = k.bit
  · subst hik
    rw [BitVec.getLsbD_eq_getElem hi] at h
    simp [h]
  · simp [hik]

/-- The kinds that clear at once. -/
theorem atOnce_iff (k : AlarmKind) : k.atOnce = true ↔ k = .headRestored ∨ k = .dieChanged := by
  cases k <;> decide

/-- The flags once an alarm of a clear flag has been raised and reported. -/
def AlarmKind.flagsAfter (k : AlarmKind) (x : BitVec 9) : BitVec 9 :=
  if k = .headRestored ∨ k = .dieChanged then x else x ||| k.mask

/-- An alarm whose flag is raised already changes nothing. -/
theorem raiseAlarm_raised {k : AlarmKind} {s : State} (h : s.mga.alarms.getLsbD k.bit = true) (subject : Nat) :
    raiseAlarm k subject s = s := if_pos h

/-- An alarm whose flag is clear is reported with its flag raised. -/
theorem raiseAlarm_clear {k : AlarmKind} {s : State} (h : s.mga.alarms.getLsbD k.bit = false) (subject : Nat) :
    raiseAlarm k subject s =
      setAlarms (k.flagsAfter s.mga.alarms)
        (offerAlarm { kind := k, subject := subject, raised := s.mga.alarms ||| k.mask } s) := by
  have hclear : ¬ alarmRaised k s = true := by rw [alarmRaised, h]; exact Bool.false_ne_true
  simp only [raiseAlarm, if_neg hclear, offerAlarm_setAlarms, clearAlarm, setAlarms_fields, clear_raised h,
    atOnce_iff, AlarmKind.flagsAfter]
  split <;> rfl

/-- An alarm report joins queue A beside any reserved place. -/
theorem offerAlarm_room {s : State} (h : queueALoad s < 16) (r : AlarmReport) :
    offerAlarm r s = { s with egs := { s.egs with a := s.egs.a ++ [makeFrame s none (.alarm r)] } } := if_pos h

/-- Without room in queue A an alarm report is dropped and counted. -/
theorem offerAlarm_full {s : State} (h : 16 ≤ queueALoad s) (r : AlarmReport) :
    offerAlarm r s = countGlobal .alarmDropped s := if_neg (Nat.not_lt.2 h)

/-- Settles O28: an event by the service state and the room of queue B, a cut by the closing pieces, an alarm by its
flag and the room of queue A, a blanking window by its length. -/
theorem eventsAreCountedAndReported : Obligations.EventsAreCountedAndReported := by
  refine ⟨fun k s hidle => ?_, fun k s hi => ?_, fun s g hg => ?_,
    ⟨fun k subject s => ⟨fun h => raiseAlarm_raised h subject, fun h hroom => ?_, fun h hfull => ?_⟩, rfl⟩,
    fun s => ⟨openBlanking_empty, openBlanking_opens⟩⟩
  · intro u place record
    have hrecord : eventRecordOf k u = record := by
      rw [eventRecordOf_countGlobal]
      simp only [eventRecordOf, record, place]
      cases s.lmp.geometry <;> rfl
    have htaken : takeEvent k s = offerEvent record u := hrecord ▸ takeEvent_idle hidle k
    obtain ⟨b, hb⟩ : ∃ b : Counters, u = { s with ctb := b } := countGlobal_frame k.counter s
    rw [htaken, hb]
    exact ⟨fun hroom => offerEvent_room (s := { s with ctb := b }) hroom record,
      fun hfull => offerEvent_full (s := { s with ctb := b }) hfull record⟩
  · rw [takeEvent_inspecting hi]
    cases k <;> rfl
  · intro n t
    refine ⟨fun hfull => takeCut_full hg ((closingFull_iff s).2 hfull) _, fun hroom => ?_⟩
    have hcut : t = forEach (usedStrands s) (cutStrand n) s := takeCut_room hg (fun hfull => by
      obtain ⟨i, hi, hfour⟩ := (closingFull_iff s).1 hfull
      exact Nat.not_lt.2 hfour (hroom i hi)) _
    rw [hcut]
    exact ⟨fun i => forEach_upd (proj := (·.pcu.strands)) (cutStrand_strands n) (usedStrands_nodup s) i s,
      forEach_cutStrand_frame ..⟩
  · rw [raiseAlarm_clear h, offerAlarm_room hroom]
    rfl
  · rw [raiseAlarm_clear h, offerAlarm_full hfull, ← countGlobal_setAlarms]
    rfl

end Sys2Proof.Machine
end

section
/-! PROOFS. The pieces and the scrap gates (R150 to R153, R155, R156, R164): the verdict of a piece, the release of a
gate, the fold of a cell into a piece and its zones, the log and its room, the completion of a piece, and the closing
pieces that a closed cell completes. -/

namespace Sys2Proof.Machine

/-! ## The verdict and the scrap gate (R153, R156) -/

/-- The verdict of a piece by the first line of R153 that applies. -/
theorem pieceVerdict_lines (limit : Nat) (p : Piece) :
    (limit * p.cells ≤ p.scrap * 100 → pieceVerdict limit p = .scrap) ∧
      (p.scrap * 100 < limit * p.cells → 0 < p.hold → pieceVerdict limit p = .hold) ∧
      (p.scrap * 100 < limit * p.cells → p.hold = 0 → 0 < p.scrap → pieceVerdict limit p = .trim) ∧
      (p.scrap * 100 < limit * p.cells → p.hold = 0 → p.scrap = 0 → pieceVerdict limit p = .accept) := by
  unfold pieceVerdict
  refine ⟨fun hscrap => if_pos hscrap, fun hbelow hhold => ?_, fun hbelow hhold htrim => ?_,
    fun hbelow hhold hclean => ?_⟩
  · rw [if_neg (Nat.not_le.2 hbelow), if_pos hhold]
  · rw [if_neg (Nat.not_le.2 hbelow), if_neg (Nat.not_lt.2 (Nat.le_of_eq hhold)), if_pos htrim]
  · rw [if_neg (Nat.not_le.2 hbelow), if_neg (Nat.not_lt.2 (Nat.le_of_eq hhold)),
      if_neg (Nat.not_lt.2 (Nat.le_of_eq hclean))]

/-- GATE_RELEASE of one of the four strands. -/
theorem exec_gateRelease (t : Fin 4) (s : State) : exec (.gateRelease t.val) s = .next (releaseGate t s) :=
  withIndex_val t s releaseGate

/-- An asserted gate is released from its release time on. -/
theorem releaseGate_due {t : Fin 4} {s : State} {time : Nat} (hgate : (s.pcu.strands[t]).gate = some time)
    (hdue : time ≤ s.now) : releaseGate t s = s.modPieces t fun p => { p with gate := none } := by
  simp only [releaseGate, hgate, if_pos hdue]

/-- A released gate, and one whose release time is to come, stays as it is (log 3). -/
theorem releaseGate_early {t : Fin 4} {s : State}
    (h : ∀ time, (s.pcu.strands[t]).gate = some time → s.now < time) : releaseGate t s = s := by
  cases hgate : (s.pcu.strands[t]).gate with
  | none => simp only [releaseGate, hgate]
  | some time => simp only [releaseGate, hgate, if_neg (Nat.not_le.2 (h time hgate))]

/-! ## The zones of a piece (R151) -/

/-- The last zone as it receives a cell that makes it `length` cells of class cls. -/
def Zone.received (r : CellResult) (length : Nat) (cls : ZoneClass) (z : Zone) : Zone :=
  { offset := z.offset, length := length, cls := cls, reasons := z.reasons ||| r.reasons
    lead := if z.lead = none then r.lead else z.lead }

/-- The lead gauge of a zone is kept once there is one. -/
theorem Zone.receive_eq (r : CellResult) (z : Zone) : z.receive r = z.received r z.length z.cls := by
  rcases z with ⟨offset, length, cls, reasons, lead⟩
  cases lead <;> rfl

/-- A cell that follows directly on a last zone of its class lengthens it. -/
theorem placeZone_joins {k : Nat} {c : ZoneClass} {z : Zone} (h : z.cls = c ∧ z.offset + z.length = k)
    (r : CellResult) (before : List Zone) :
    placeZone k c r (before ++ [z]) = (before ++ [z.received r (z.length + 1) c], false) := by
  simp only [placeZone, List.getLast?_concat, List.dropLast_concat, if_pos h, Zone.receive_eq]
  rw [← h.1]
  rfl

/-- Any other cell begins a new zone while there are fewer than eight. -/
theorem placeZone_begins {k : Nat} {c : ZoneClass} {before : List Zone} {z : Zone}
    (h : ¬ (z.cls = c ∧ z.offset + z.length = k)) (hroom : (before ++ [z]).length < 8) (r : CellResult) :
    placeZone k c r (before ++ [z]) = (before ++ [z] ++ [Zone.made k c r], false) := by
  simp only [placeZone, List.getLast?_concat, if_neg h]
  exact if_pos hroom

/-- With eight zones the last is extended to cover the cell. -/
theorem placeZone_covers {k : Nat} {c : ZoneClass} {before : List Zone} {z : Zone}
    (h : ¬ (z.cls = c ∧ z.offset + z.length = k)) (hfull : 8 ≤ (before ++ [z]).length) (r : CellResult) :
    placeZone k c r (before ++ [z]) =
      (before ++ [z.received r (k - z.offset + 1) (if c = .scrap then .scrap else z.cls)], true) := by
  simp only [placeZone, List.getLast?_concat, List.dropLast_concat, if_neg h, Zone.receive_eq]
  exact if_neg (Nat.not_lt.2 hfull)

/-! ## A cell folded into a piece (R150) -/

/-- GOOD and WARN cells ask for no zone. -/
theorem CellVerdict.zoneClass_eq_none_iff (v : CellVerdict) : v.zoneClass = none ↔ v = .good ∨ v = .warn := by
  cases v <;> simp [CellVerdict.zoneClass]

/-- HOLD and SCRAP cells ask for a zone of their class. -/
theorem CellVerdict.zoneClass_eq_some_iff (v : CellVerdict) (c : ZoneClass) :
    v.zoneClass = some c ↔ (v = .hold ∧ c = .hold) ∨ (v = .scrap ∧ c = .scrap) := by
  cases v <;> simp [CellVerdict.zoneClass, eq_comm]

/-- A piece with a cell counted and its reasons joined, the zones as they were. -/
def Piece.counted (r : CellResult) (p : Piece) : Piece :=
  { p with
    cells := p.cells + 1
    good := p.good + if r.verdict = .good then 1 else 0
    warn := p.warn + if r.verdict = .warn then 1 else 0
    hold := p.hold + if r.verdict = .hold then 1 else 0
    scrap := p.scrap + if r.verdict = .scrap then 1 else 0
    reasons := p.reasons ||| r.reasons }

/-- A GOOD or WARN cell is counted and changes no zone. -/
theorem Piece.fold_counted {r : CellResult} (h : r.verdict.zoneClass = none) (n : Word32) (p : Piece) :
    p.fold n r = p.counted r := by
  simp only [Piece.fold, h]
  rfl

/-- A HOLD or SCRAP cell is counted and placed among the zones. -/
theorem Piece.fold_placed {r : CellResult} {c : ZoneClass} (h : r.verdict.zoneClass = some c) (n : Word32) (p : Piece) :
    p.fold n r = { p.counted r with
      zones := (placeZone (n - p.first).toNat c r p.zones).1
      overflow := p.overflow || (placeZone (n - p.first).toNat c r p.zones).2 } := by
  simp only [Piece.fold, h]
  rfl

/-- A fold counts the cell and changes beside that the zones and the overflow flag alone. -/
theorem Piece.fold_frame (n : Word32) (r : CellResult) (p : Piece) :
    p.fold n r = { p.counted r with zones := (p.fold n r).zones, overflow := (p.fold n r).overflow } := by
  cases hclass : r.verdict.zoneClass with
  | none => rw [Piece.fold_counted hclass]
  | some c => rw [Piece.fold_placed hclass]

/-- The zones after a HOLD or SCRAP cell whose placing keeps the overflow flag. -/
theorem Piece.fold_zones_kept {n : Word32} {r : CellResult} {p : Piece} {c : ZoneClass} {zones : List Zone}
    (h : r.verdict.zoneClass = some c)
    (hplaced : placeZone (n - p.first).toNat c r p.zones = (zones, false)) :
    (p.fold n r).zones = zones ∧ (p.fold n r).overflow = p.overflow := by
  rw [Piece.fold_placed h, hplaced]
  exact ⟨rfl, Bool.or_false _⟩

/-- The zones after a HOLD or SCRAP cell whose placing sets the overflow flag. -/
theorem Piece.fold_zones_full {n : Word32} {r : CellResult} {p : Piece} {c : ZoneClass} {zones : List Zone}
    (h : r.verdict.zoneClass = some c)
    (hplaced : placeZone (n - p.first).toNat c r p.zones = (zones, true)) :
    (p.fold n r).zones = zones ∧ (p.fold n r).overflow = true := by
  rw [Piece.fold_placed h, hplaced]
  exact ⟨rfl, Bool.or_true _⟩

/-! ## The log (R155, R164) -/

/-- The clearing test leaves a backlog while an entry is UNSENT. -/
theorem backlogClearTest_unsent {s : State} (h : ∃ x ∈ s.pcu.log, x.sent = false) : backlogClearTest s = s := by
  refine if_pos (List.any_eq_true.2 ?_)
  obtain ⟨x, hx, hunsent⟩ := h
  exact ⟨x, hx, by rw [hunsent]; rfl⟩

/-- The clearing test clears PIECE_BACKLOG once every entry is SENT. -/
theorem backlogClearTest_sent {s : State} (h : ∀ x ∈ s.pcu.log, x.sent = true) :
    backlogClearTest s = { s with mga := { s.mga with alarms := s.mga.alarms &&& ~~~64#9 } } := by
  refine if_neg fun hany => ?_
  obtain ⟨x, hx, hunsent⟩ := List.any_eq_true.1 hany
  rw [h x hx] at hunsent
  exact Bool.noConfusion hunsent

/-- A strand's log with room is left as it is. -/
theorem makeLogRoom_room {t : Fin 4} {s : State} (h : logCount t s.pcu.log < 16) : makeLogRoom t s = s := if_pos h

/-- A full log of a strand loses the oldest of its entries, whose report is lost while UNSENT (log 19). -/
theorem makeLogRoom_full {t : Fin 4} {s : State} {before after : List LogEntry} {e : LogEntry}
    (hfull : 16 ≤ logCount t s.pcu.log) (hsplit : s.pcu.log = before ++ e :: after)
    (hbefore : ∀ x ∈ before, x.completed.strand ≠ t) (he : e.completed.strand = t) :
    makeLogRoom t s =
      if e.sent then setLog (before ++ after) s
      else backlogClearTest
        (raiseAlarm .pieceLost t.val (countStrand t .pieceLost (setLog (before ++ after) s))) := by
  have hfound : s.pcu.log.find? (·.completed.strand = t) = some e := by
    refine List.find?_eq_some_iff_append.2 ⟨decide_eq_true he, before, after, hsplit, fun x hx => ?_⟩
    simp [hbefore x hx]
  have hdropped : dropOldest t s.pcu.log = before ++ after := by
    rw [dropOldest, hsplit, List.eraseP_append_right _ fun x hx => by simp [hbefore x hx],
      List.eraseP_cons_of_pos (by simp [he])]
  have hnot : ¬ logCount t s.pcu.log < Config.pieceLog := Nat.not_lt.2 hfull
  simp only [makeLogRoom, if_neg hnot, hfound, hdropped]

/-- A lost report, counted and raised, leaves the log. -/
theorem pieceLost_log (t : Fin 4) (s : State) :
    (raiseAlarm .pieceLost t.val (countStrand t .pieceLost s)).pcu.log = s.pcu.log :=
  (raiseAlarm_only (l := [.alarms, .queueA, .counters]) (countStrand_only Only.rfl)).kept .log

/-! ## The completion of a piece (R152) -/

/-- A completed piece with the strand's next piece number, counted under its verdict and logged. -/
def enterPiece (t : Fin 4) (v : PieceVerdict) (p : Piece) (s : State) : State :=
  logPiece { strand := t, verdict := v, number := (s.pcu.strands[t]).next, piece := p }
    (countStrand t v.counter (s.modPieces t fun q => { q with next := q.next + 1 }))

/-- The strands once a completed piece has been logged. -/
theorem enterPiece_strands (t : Fin 4) (v : PieceVerdict) (p : Piece) (s : State) :
    (enterPiece t v p s).pcu.strands = upd s.pcu.strands t fun q => { q with next := q.next + 1 } :=
  (logPiece_only (l := [.log, .alarms, .queueA, .queueB, .counters]) (countStrand_only Only.rfl)).kept .pieces

/-- A piece that completes is entered, and asserts the gate when it is SCRAP, from the instant of its completion. -/
theorem completePiece_eq (t : Fin 4) (v : PieceVerdict) (p : Piece) (s : State) :
    completePiece t v p s =
      if v = .scrap then
        (enterPiece t v p s).modPieces t fun q => { q with gate := some (s.now + s.pcu.holdTime * 1000) }
      else enterPiece t v p s := by
  have honly : Only pieceParts s (enterPiece t v p s) := logPiece_only (countStrand_only (modPieces_only Only.rfl))
  have hnow : (enterPiece t v p s).now = s.now := honly.kept .now
  have hhold : (enterPiece t v p s).pcu.holdTime = s.pcu.holdTime := congrArg Settings.gateHold (honly.kept .settings)
  rw [← hnow, ← hhold]
  rfl

/-- A strand once a piece of it has completed with verdict v, a gate asserted now having the given release time. -/
def StrandPieces.completed (v : PieceVerdict) (release : Nat) (q : StrandPieces) : StrandPieces :=
  { q with next := q.next + 1, gate := if v = .scrap then some release else q.gate }

/-- The strands once a piece has completed. -/
theorem completePiece_strands (t : Fin 4) (v : PieceVerdict) (p : Piece) (s : State) :
    (completePiece t v p s).pcu.strands =
      upd s.pcu.strands t (StrandPieces.completed v (s.now + s.pcu.holdTime * 1000)) := by
  rw [completePiece_eq]
  by_cases hv : v = .scrap
  · subst hv
    simp only [if_true, modPieces_fields, enterPiece_strands, upd_upd]
    rfl
  · rw [if_neg hv, enterPiece_strands]
    refine congrArg (upd s.pcu.strands t) (funext fun q => ?_)
    rw [StrandPieces.completed, if_neg hv]

/-- Pieces of one strand that complete one after another take its next piece numbers; its closing list, its open
piece and every other strand stay. -/
theorem foldl_completePiece_strands {α : Type} (t : Fin 4) (v : α → PieceVerdict) (p : α → Piece) (l : List α)
    (s : State) :
    let u := l.foldl (fun u c => completePiece t (v c) (p c) u) s
    (u.pcu.strands[t]).closing = (s.pcu.strands[t]).closing ∧
      (u.pcu.strands[t]).openPiece = (s.pcu.strands[t]).openPiece ∧
      (u.pcu.strands[t]).next = (s.pcu.strands[t]).next + BitVec.ofNat 32 l.length ∧
      ∀ i : Fin 4, i ≠ t → u.pcu.strands[i] = s.pcu.strands[i] := by
  induction l generalizing s with
  | nil => exact ⟨rfl, rfl, (BitVec.add_zero _).symm, fun _ _ => rfl⟩
  | cons c l ih =>
    obtain ⟨hclosing, hopen, hnext, hother⟩ := ih (completePiece t (v c) (p c) s)
    have hstrand := (congrArg (·[t]) (completePiece_strands t (v c) (p c) s)).trans (upd_get_self ..)
    refine ⟨hclosing.trans ?_, hopen.trans ?_, hnext.trans ?_, fun i hi => (hother i hi).trans ?_⟩
    · rw [hstrand]
      rfl
    · rw [hstrand]
      rfl
    · rw [hstrand, List.length_cons, Nat.add_comm l.length 1, BitVec.ofNat_add, ← BitVec.add_assoc]
      rfl
    · rw [completePiece_strands, upd_get_other _ _ hi.symm]

/-! ## A closed cell (R150) -/

/-- A change that keeps the die slots keeps the die in service. -/
theorem servingDie_of_dies {s u : State} (h : u.dlb.slots = s.dlb.slots) : servingDie u = servingDie s := by
  unfold servingDie servingSlot
  rw [h]

/-- The pieces that await a cell complete under the die in service, which their completions do not change. -/
theorem forEach_complete_awaiting (t : Fin 4) (n : Word32) (r : CellResult) {die : DieRecord} (l : List ClosingPiece)
    {s : State} (hdie : servingDie s = die) :
    forEach l (fun c s =>
        completePiece t (pieceVerdict (servingDie s).entry.scrapLimit (c.piece.fold n r)) (c.piece.fold n r) s) s =
      l.foldl (fun u c =>
        completePiece t (pieceVerdict die.entry.scrapLimit (c.piece.fold n r)) (c.piece.fold n r) u) s := by
  induction l generalizing s with
  | nil => rfl
  | cons c l ih =>
    subst hdie
    exact ih (servingDie_of_dies ((completePiece_only Only.rfl).kept (l := pieceParts) .dies))

/-- A closed cell completes the pieces that await it and is then folded into the open piece. -/
theorem foldCell_eq (t : Fin 4) (n : Word32) (r : CellResult) (s : State) :
    foldCell t n r s =
      (((s.pcu.strands[t]).closing.filter fun c => decide (c.cut = n)).foldl (fun u c =>
          completePiece t (pieceVerdict (servingDie s).entry.scrapLimit (c.piece.fold n r)) (c.piece.fold n r) u)
        (s.modPieces t fun x =>
          { x with closing := (s.pcu.strands[t]).closing.filter fun c => decide (c.cut ≠ n) })).modPieces t
        fun x => { x with openPiece := x.openPiece.map (Piece.fold n r) } := by
  refine congrArg (State.modPieces t _) (forEach_complete_awaiting t n r _ ?_)
  exact servingDie_of_dies rfl

/-- The strands once a closed cell has been folded. -/
theorem foldCell_strands (t : Fin 4) (n : Word32) (r : CellResult) (s : State) :
    let p := s.pcu.strands[t]
    let u := foldCell t n r s
    (u.pcu.strands[t]).closing = p.closing.filter (fun c => decide (c.cut ≠ n)) ∧
      (u.pcu.strands[t]).openPiece = p.openPiece.map (Piece.fold n r) ∧
      (u.pcu.strands[t]).next =
        p.next + BitVec.ofNat 32 (p.closing.filter fun c => decide (c.cut = n)).length ∧
      ∀ i : Fin 4, i ≠ t → u.pcu.strands[i] = s.pcu.strands[i] := by
  intro p u
  obtain ⟨hclosing, hopen, hnext, hother⟩ := foldl_completePiece_strands t
    (fun c : ClosingPiece => pieceVerdict (servingDie s).entry.scrapLimit (c.piece.fold n r))
    (fun c => c.piece.fold n r) (p.closing.filter fun c => decide (c.cut = n))
    (s.modPieces t fun x => { x with closing := p.closing.filter fun c => decide (c.cut ≠ n) })
  simp only [u, foldCell_eq, modPieces_fields, upd_get_self]
  simp only [modPieces_fields, upd_get_self] at hclosing hopen hnext
  refine ⟨hclosing, congrArg (Option.map (Piece.fold n r)) hopen, hnext, fun i hi => ?_⟩
  rw [upd_get_other _ _ hi.symm, hother i hi]
  exact upd_get_other _ _ hi.symm

/-- Settles O32: the verdict by its lines, the gate by its release time, a completion by `enterPiece` and the room of
the log, a fold by the placing of its cell, a closed cell by the closing pieces that await it. -/
theorem pieceVerdictsAndScrapGates : Obligations.PieceVerdictsAndScrapGates := by
  refine ⟨⟨pieceVerdict_lines, fun t v p s => ?_⟩, fun t s => ⟨fun time hgate hdue => ?_, fun hearly => ?_⟩,
    ⟨fun t v p s => ?_, fun c s => ?_⟩, fun n r p => ?_, fun t n r s => ?_⟩
  · rw [completePiece_strands, upd_get_self]
    exact ⟨rfl, rfl⟩
  · exact (exec_gateRelease t s).trans (congrArg _ (releaseGate_due hgate hdue))
  · exact (exec_gateRelease t s).trans (congrArg _ (releaseGate_early hearly))
  · intro counter
    have hcounter : counter = v.counter := by cases v <;> rfl
    rw [hcounter]
    exact completePiece_eq t v p s
  · intro withLog enters held
    have hheld : held = logCount c.strand s.pcu.log := (List.countP_eq_length_filter ..).symm
    have hlogged : logPiece c s = enters (makeLogRoom c.strand s) := rfl
    refine ⟨fun hroom => ?_, fun hfull before after e hsplit hbefore he => ?_⟩
    · rw [hlogged, makeLogRoom_room (hheld ▸ hroom)]
    · intro u
      have hmade := makeLogRoom_full (hheld ▸ hfull) hsplit hbefore he
      refine ⟨fun hsent => ?_, fun hunsent => ?_⟩
      · rw [hlogged, hmade, if_pos hsent]
        rfl
      · intro v
        have hlost : makeLogRoom c.strand s = backlogClearTest v :=
          hmade.trans (if_neg (hunsent ▸ Bool.false_ne_true))
        have hlog : v.pcu.log = before ++ after := pieceLost_log c.strand u
        rw [hlogged, hlost]
        exact ⟨fun hleft => congrArg enters (backlogClearTest_unsent (hlog ▸ hleft)),
          fun hnone => congrArg enters (backlogClearTest_sent (hlog ▸ hnone))⟩
  · intro q one k made
    refine ⟨Piece.fold_frame n r p, fun hpassed => ?_, fun c hc => ?_⟩
    · have hcounted : q = p.counted r := Piece.fold_counted ((CellVerdict.zoneClass_eq_none_iff _).2 hpassed) n p
      rw [hcounted]
      exact ⟨rfl, rfl⟩
    · have hclass : r.verdict.zoneClass = some c := (CellVerdict.zoneClass_eq_some_iff _ c).2 hc
      refine ⟨fun hempty => Piece.fold_zones_kept hclass (by rw [hempty]; rfl), fun before z hzones => ?_⟩
      intro joins received
      rw [hzones]
      exact ⟨fun hjoins => Piece.fold_zones_kept hclass (hzones ▸ placeZone_joins hjoins r before),
        fun hjoins hroom => Piece.fold_zones_kept hclass (hzones ▸ placeZone_begins hjoins hroom r),
        fun hjoins hfull => Piece.fold_zones_full hclass (hzones ▸ placeZone_covers hjoins hfull r)⟩
  · exact ⟨foldCell_eq t n r s, foldCell_strands t n r s⟩

end Sys2Proof.Machine
end

section
/-! PROOFS. The selection among the egress queues (R165): the choice under STRICT, and the turn under QUOTA. -/

namespace Sys2Proof.Machine

/-- The idle uplink begins to send the frame of the queue that the scheduler selects. -/
theorem exec_uplinkSelect_selected {s t : State} {q : QueueId} (hreset : s.inReset = false)
    (hidle : s.upl.sending = none) (hselect : selectQueue s = some (q, t)) :
    exec .uplinkSelect s = .next (beginSending q t) := by
  have hfree : (s.inReset || s.upl.sending.isSome) = false := by rw [hreset, hidle]; rfl
  change Host.Outcome.next (selectFrame s) = _
  rw [selectFrame, hfree, hselect]
  rfl

/-- The idle uplink with no queue to select stays idle. -/
theorem exec_uplinkSelect_none {s : State} (hselect : selectQueue s = none) : exec .uplinkSelect s = .next s := by
  change Host.Outcome.next (selectFrame s) = _
  rw [selectFrame, hselect, ite_self]

/-! ## STRICT (R165) -/

/-- Under STRICT the queue is chosen and the turn left as it is. -/
theorem selectQueue_strict {s : State} (hmode : s.egs.mode = .strict) :
    selectQueue s = (strictChoice s).map fun q => (q, s) := by rw [selectQueue, hmode]

/-- A queue D without a queued entry begins no sending. -/
theorem beginSending_d_none {s : State} (h : queueHolds s .d = false) : beginSending .d s = s := by
  have hnone : s.pool.held.find? HeldFrame.inQueueD = none :=
    List.find?_eq_none.2 (List.any_eq_false.1 h)
  simp only [beginSending, hnone]

/-! ## QUOTA (R165) -/

/-- Under QUOTA the turn is moved to the queue that is chosen, with its count. -/
theorem selectQueue_quota {s : State} (hmode : s.egs.mode = .quota) {q : QueueId} {n : Nat}
    (hchoice : quotaChoice s 5 s.egs.turn s.egs.turnCount = some (q, n)) :
    selectQueue s = some (q, { s with egs := { s.egs with turn := q, turnCount := n } }) := by
  rw [selectQueue, hmode]
  simp only [hchoice, Option.map_some]

/-- Four queues on, the cycle is back at its queue. -/
theorem QueueId.following_cycle (q : QueueId) : q.following.following.following.following = q := by
  cases q <;> rfl

/-- A queue keeps the turn while it holds a frame and its count is below its quota. -/
theorem quotaChoice_keeps {s : State} {q : QueueId} {n : Nat}
    (h : queueHolds s q = true ∧ n < s.egs.quotas[q.index]) (fuel : Nat) :
    quotaChoice s (fuel + 1) q n = some (q, n + 1) := by
  rw [quotaChoice, if_pos (by simpa using h)]

/-- Otherwise the turn passes to the next queue of the cycle, with count 0. -/
theorem quotaChoice_passes {s : State} {q : QueueId} {n : Nat}
    (h : ¬ (queueHolds s q = true ∧ n < s.egs.quotas[q.index])) (fuel : Nat) :
    quotaChoice s (fuel + 1) q n = quotaChoice s fuel q.following 0 := by
  rw [quotaChoice, if_neg (by simpa using h)]

/-- An empty queue passes the turn on. -/
theorem quotaChoice_empty {s : State} {q : QueueId} (h : queueHolds s q = false) (fuel n : Nat) :
    quotaChoice s (fuel + 1) q n = quotaChoice s fuel q.following 0 :=
  quotaChoice_passes (fun ⟨hholds, _⟩ => Bool.false_ne_true (h.symm.trans hholds)) fuel

/-- A queue that holds a frame and gets the turn sends with count 1, as every quota is at least 1. -/
theorem quotaChoice_turned {s : State} (hquota : ∀ i : Fin 4, 1 ≤ s.egs.quotas[i]) {q : QueueId}
    (h : queueHolds s q = true) (fuel : Nat) : quotaChoice s (fuel + 1) q 0 = some (q, 1) :=
  quotaChoice_keeps ⟨h, hquota q.index⟩ fuel

/-- Settles O15: the first queue that holds a frame under STRICT, and under QUOTA the five steps of the turn around
the cycle. -/
theorem selectionFollowsTheSchedulingMode : Obligations.SelectionFollowsTheSchedulingMode := by
  refine ⟨fun s hreset hidle hmode => ?_, fun s hreset hidle hmode hquota => ?_⟩
  · have chosen {q : QueueId} (hq : strictChoice s = some q) : exec .uplinkSelect s = .next (beginSending q s) :=
      exec_uplinkSelect_selected hreset hidle (by rw [selectQueue_strict hmode, hq]; rfl)
    obtain ⟨begins, -, -⟩ := sendingBeginsWithTheHeadOfTheQueue
    obtain ⟨begins_a, begins_b, begins_c, -⟩ := begins s
    refine ⟨fun f rest ha => ?_, fun f rest ha hb => ?_, fun f rest ha hb hc => ?_, fun ha hb hc => ?_⟩
    · rw [chosen (q := .a) (by simp [strictChoice, queueHolds, ha]), begins_a f rest ha]
    · rw [chosen (q := .b) (by simp [strictChoice, queueHolds, ha, hb]), begins_b f rest hb]
    · rw [chosen (q := .c) (by simp [strictChoice, queueHolds, ha, hb, hc]), begins_c f rest hc]
    · have hempty : queueHolds s .a = false ∧ queueHolds s .b = false ∧ queueHolds s .c = false := by
        simp [queueHolds, ha, hb, hc]
      obtain ⟨ha, hb, hc⟩ := hempty
      cases hd : queueHolds s .d with
      | true => exact chosen (by simp [strictChoice, ha, hb, hc, hd])
      | false =>
        rw [beginSending_d_none hd]
        exact exec_uplinkSelect_none (by simp [selectQueue_strict hmode, strictChoice, ha, hb, hc, hd])
  · intro turned holds q0 q1 q2 q3 keeps
    have chosen {q : QueueId} {n : Nat} (hchoice : quotaChoice s 5 q0 s.egs.turnCount = some (q, n)) :
        exec .uplinkSelect s = .next (beginSending q (turned q n)) :=
      exec_uplinkSelect_selected hreset hidle (selectQueue_quota hmode hchoice)
    refine ⟨fun hkeeps => chosen (quotaChoice_keeps hkeeps 4),
      fun hpasses h1 => chosen ?_, fun hpasses h1 h2 => chosen ?_, fun hpasses h1 h2 h3 => chosen ?_,
      fun hpasses h1 h2 h3 h0 => chosen ?_⟩ <;> rw [quotaChoice_passes hpasses]
    · exact quotaChoice_turned hquota h1 3
    · rw [quotaChoice_empty h1]
      exact quotaChoice_turned hquota h2 2
    · rw [quotaChoice_empty h1, quotaChoice_empty h2]
      exact quotaChoice_turned hquota h3 1
    · rw [quotaChoice_empty h1, quotaChoice_empty h2, quotaChoice_empty h3, QueueId.following_cycle]
      exact quotaChoice_turned hquota h0 0

end Sys2Proof.Machine
end

section
/-! SUPPORT. What the execution of a request can change, whatever its row: a taken request leaves the input queue
by its taking alone (R171). -/

namespace Sys2Proof.Machine

/-! ## Executions of SET_CONFIG (R175) -/

/-- The parts that a write of an item of the head ports or the pool can change. -/
abbrev portItemParts : List Part := [.ports, .reserves, .held, .settings, .trg, .counters]

/-- What a write of the reserve can change. -/
theorem writeReserve_only {p : Fin 8} {v : Int} {s : State} : Only portItemParts s (writeReserve p v s).2 := by
  unfold writeReserve
  dsimp only
  split
  · exact Only.rfl
  · split
    · exact Only.rfl
    · exact evictionCheck_only (modPort_only Only.rfl)

/-- What a write of an item of the head ports or the pool can change. -/
theorem writePortItem_parts {e : ConfigEntry} {s : State} : Only portItemParts s (writePortItem e s).2 := by
  unfold writePortItem
  dsimp only
  split
  · exact atIndex_keeps Only.rfl fun p => withCode_keeps Only.rfl fun r => writeRole_only
  · exact atIndex_keeps Only.rfl fun p => withCode_keeps Only.rfl fun m => modPort_only Only.rfl
  · exact atIndex_keeps Only.rfl fun p => withCode_keeps Only.rfl fun h => modPort_only Only.rfl
  · exact atIndex_keeps Only.rfl fun p => withCode_keeps Only.rfl fun d => modPort_only Only.rfl
  · exact atIndex_keeps Only.rfl fun p => withCode_keeps Only.rfl fun m => modPort_only Only.rfl
  · exact atIndex_keeps Only.rfl fun p => modPort_only Only.rfl
  · exact atIndex_keeps Only.rfl fun p => writeReserve_only
  · exact atIndex_keeps Only.rfl fun p => flowControlCheck_only (modPort_only Only.rfl)
  · exact atIndex_keeps Only.rfl fun p => flowControlCheck_only (modPort_only Only.rfl)
  · exact atIndex_keeps Only.rfl fun p => modOutput_only Only.rfl
  · exact atZero_keeps Only.rfl (withinRange_keeps Only.rfl fun n => mirror_only)
  · exact atZero_keeps Only.rfl (pool_settings_only rfl)
  · exact Only.rfl

/-- The parts that the execution of a request can change: neither the input queue nor the reserved place. -/
abbrev executionParts : List Part :=
  portItemParts ++ lineItemParts ++ agentItemParts ++
    [.lines, .service, .stillness, .resetPhase, .window] ++ dieParts

/-- What a written item can change. -/
theorem writeItem_only {source : Address} {e : ConfigEntry} {s : State} :
    Only executionParts s (writeItem source e s).2 := by
  unfold writeItem
  split
  · exact writePortItem_parts.widen (by decide)
  · split
    · exact writeLineItem_only.widen (by decide)
    · split
      · exact writeInspectionItem_only.widen (by decide)
      · exact writeAgentItem_only.widen (by decide)

/-- What SET_CONFIG can change. -/
theorem setConfig_only {r : Request} {s : State} : Only executionParts s (setConfig r s).2 :=
  setConfig_keeps (P := Only executionParts s) (fun _ _ _ hu => hu.trans writeItem_only) r Only.rfl

end Sys2Proof.Machine
end

section
/-! PROOFS. The one response to every request taken (R161, R171, R172, R173): the row that takes a request (log 6),
and the state in which that row leaves it. -/

namespace Sys2Proof.Machine

/-! ## The row that takes a request (log 6) -/

/-- c is a row that takes r from the input queue and executes it, within the parts of executions. -/
def TakesRequest (c : Instr) (r : Request) : Prop :=
  ∃ (selects : Request → Bool) (sizeOk : Nat → Bool) (run : Execution),
    (∀ s, exec c s = .next (takeRequest selects sizeOk run s)) ∧ selects r = true ∧
      ∀ r s, Only executionParts s (run r s).2

/-- A request is one of its command number. -/
theorem isCommand_of_toNat {r : Request} {n : Byte} (h : r.command.toNat = n.toNat) : isCommand n r = true :=
  beq_iff_eq.2 (BitVec.eq_of_toNat_eq h)

/-- The row of the first entry's item takes a sound SET_CONFIG request. -/
theorem takesRequest_write {r : Request} {c : Instr} {items : List Nat}
    (hexec : ∀ s, exec c s = .next (takeWrite items s)) (hsound : soundSetConfig r = true)
    (hitem : items.contains (firstItem r) = true) : TakesRequest c r :=
  ⟨_, _, _, hexec, by rw [hsound, hitem]; rfl, fun _ _ => setConfig_only⟩

/-- WRITE_CONFIG_ITEM takes every SET_CONFIG request that no row of an item takes. -/
theorem takesRequest_writeConfigItem {r : Request} (hcommand : isCommand 2 r = true)
    (hrest : (soundSetConfig r && itemsWithRow.contains (firstItem r)) = false) :
    TakesRequest .writeConfigItem r :=
  ⟨_, _, _, fun _ => rfl, by rw [hcommand, hrest]; rfl, fun _ _ => setConfig_only⟩

/-- The row of a SET_CONFIG request takes it. -/
theorem takesRequest_writeRow {r : Request} (hcommand : isCommand 2 r = true) : TakesRequest (writeRow r) r := by
  unfold writeRow
  split
  case isFalse hunsound =>
    exact takesRequest_writeConfigItem hcommand (by rw [eq_false_of_ne_true hunsound, Bool.false_and])
  case isTrue hsound =>
    split
    case h_19 => exact takesRequest_writeConfigItem hcommand (by simp_all [itemsWithRow])
    all_goals
      rename_i hitem
      exact takesRequest_write (fun _ => rfl) hsound (by rw [hitem]; decide)

/-- A COUNTERS request of a sound size is one of its operation code. -/
theorem isOperation_of_arg {r : Request} {op : Nat} (hcommand : isCommand 14 r = true)
    (hsize : r.args.length = 3) (hop : r.arg 0 = op) : isOperation op r = true := by
  have hcode : natAt r.args 0 1 = op := hop
  rw [isOperation, hcommand, hsize, hcode, beq_self_eq_true]
  rfl

/-- READ takes every COUNTERS request of a wrong size or with an operation code outside 1 to 5. -/
theorem takesRequest_read {r : Request} (hcommand : isCommand 14 r = true)
    (hother : ¬ (r.args.length = 3 ∧ 1 ≤ r.arg 0 ∧ r.arg 0 ≤ 5)) : TakesRequest .read r := by
  refine ⟨_, _, _, fun _ => rfl, ?_, fun _ _ => readCounters_only⟩
  rw [hcommand, Bool.true_and, Bool.not_eq_true', ← Bool.not_eq_true]
  simpa [sizeIs, Request.arg] using hother

/-- The row of a COUNTERS request takes it. -/
theorem takesRequest_counterRow {r : Request} (hcommand : isCommand 14 r = true) :
    TakesRequest (counterRow r) r := by
  unfold counterRow
  split
  case isFalse hsize => exact takesRequest_read hcommand fun ⟨hthree, _⟩ => hsize hthree
  case isTrue hsize =>
    have operation {op : Nat} (hop : r.arg 0 = op) : isOperation op r = true :=
      isOperation_of_arg hcommand hsize hop
    split
    case h_1 hop => exact ⟨_, _, _, fun _ => rfl, operation hop, fun _ _ => readClear_only⟩
    case h_2 hop => exact ⟨_, _, _, fun _ => rfl, operation hop, fun _ _ => clearScope_only⟩
    case h_3 hop => exact ⟨_, _, _, fun _ => rfl, operation hop, fun _ _ => clearAll_only⟩
    case h_4 hop => exact ⟨_, _, _, fun _ => rfl, operation hop, fun _ _ => setFreeze_only⟩
    case h_5 hop => exact ⟨_, _, _, fun _ => rfl, operation hop, fun _ _ => setFreeze_only⟩
    case h_6 =>
      simp only [imp_false] at *
      exact takesRequest_read hcommand (by omega)

/-- Every request is taken by the row that it is. -/
theorem takesRequest_rowOf (r : Request) : TakesRequest (rowOf r) r := by
  unfold rowOf
  split
  case h_1 h => exact ⟨_, _, _, fun _ => rfl, isCommand_of_toNat h, fun _ _ => identify_only⟩
  case h_2 h => exact takesRequest_writeRow (isCommand_of_toNat h)
  case h_3 h => exact ⟨_, _, _, fun _ => rfl, isCommand_of_toNat h, fun _ _ => getConfig_only⟩
  case h_4 h => exact ⟨_, _, _, fun _ => rfl, isCommand_of_toNat h, fun _ _ => setGeometry_only⟩
  case h_5 h => exact ⟨_, _, _, fun _ => rfl, isCommand_of_toNat h, fun _ _ => setHeadState_only⟩
  case h_6 h => exact ⟨_, _, _, fun _ => rfl, isCommand_of_toNat h, fun _ _ => tableOpen_only⟩
  case h_7 h => exact ⟨_, _, _, fun _ => rfl, isCommand_of_toNat h, fun _ _ => tableData_only⟩
  case h_8 h => exact ⟨_, _, _, fun _ => rfl, isCommand_of_toNat h, fun _ _ => tableRead_only⟩
  case h_9 h => exact ⟨_, _, _, fun _ => rfl, isCommand_of_toNat h, fun _ _ => selectDie_only⟩
  case h_10 h => exact ⟨_, _, _, fun _ => rfl, isCommand_of_toNat h, fun _ _ => deactivate_only⟩
  case h_11 h => exact ⟨_, _, _, fun _ => rfl, isCommand_of_toNat h, fun _ _ => flushCommand_only⟩
  case h_12 h => exact ⟨_, _, _, fun _ => rfl, isCommand_of_toNat h, fun _ _ => readCells_only⟩
  case h_13 h => exact ⟨_, _, _, fun _ => rfl, isCommand_of_toNat h, fun _ _ => readPieces_only⟩
  case h_14 h => exact takesRequest_counterRow (isCommand_of_toNat h)
  case h_15 h => exact ⟨_, _, _, fun _ => rfl, isCommand_of_toNat h, fun _ _ => clearAlarms_only⟩
  case h_16 h => exact ⟨_, _, _, fun _ => rfl, isCommand_of_toNat h, fun _ _ => resetCommand_only⟩
  case h_17 =>
    refine ⟨_, _, _, fun _ => rfl, ?_, fun _ _ => Only.rfl⟩
    have hzero : r.command = 0 ↔ r.command.toNat = 0 := by
      rw [← BitVec.toNat_inj]
      rfl
    rw [Bool.or_eq_true, beq_iff_eq, decide_eq_true_eq, hzero]
    simp only [imp_false] at *
    omega

/-! ## The response (R161, R171–R173) -/

/-- r has left the input queue, with rest in it, no place of queue A is reserved, and the last frame of queue A
is a response to r. -/
def Responded (r : Request) (rest : List Request) (t : State) : Prop :=
  ∃ (before : List OutFrame) (ft : BitVec 16) (source : Address) (st : Status) (data : List Byte),
    t.mga.input = rest ∧ t.egs.reserved = false ∧
      t.egs.a = before ++
        [{ frameType := ft, source := source, dest := some r.source, content := .response r.tag r.command st data }]

/-- An answer to r is its response, when r has left the input queue. -/
theorem responded_answered {r : Request} {rest : List Request} {t : State} (h : t.mga.input = rest) (st : Status)
    (data : List Byte) : Responded r rest (answered r st data t) := ⟨_, _, _, _, _, h, rfl, rfl⟩

/-- A request has left the input queue when its execution begins. -/
theorem begun_input (s : State) (r : Request) (rest : List Request) : (begun s r rest).mga.input = rest := by
  unfold begun
  split
  · rfl
  · exact (closeWindow_only (l := [.window, .dies]) Only.rfl).kept .input

/-- A taken request is responded to by a row that selects it, whether it is bound or not and whatever its size. -/
theorem responded_takeRequest {s : State} {r : Request} {rest : List Request} (h : Taken s r rest)
    {selects : Request → Bool} (hselects : selects r = true) (sizeOk : Nat → Bool) {run : Execution}
    (hrun : ∀ r s, Only executionParts s (run r s).2) : Responded r rest (takeRequest selects sizeOk run s) := by
  by_cases hbound : Bound s r.source
  · rw [takeRequest_ready ⟨h, hbound⟩ hselects]
    split
    · exact responded_answered (((hrun r _).kept .input).trans (begun_input s r rest)) _ _
    · exact responded_answered (begun_input s r rest) _ _
  · rw [takeRequest_unbound h hbound hselects]
    exact responded_answered rfl _ _

/-- Settles O36: the row that a request is takes it, and a row responds to what it takes. -/
theorem everyTakenRequestIsAnsweredByItsRow : Obligations.EveryTakenRequestIsAnsweredByItsRow := by
  intro s r rest h
  obtain ⟨selects, sizeOk, run, hexec, hselects, hrun⟩ := takesRequest_rowOf r
  obtain ⟨before, ft, source, st, data, hresponse⟩ := responded_takeRequest h hselects sizeOk hrun
  exact ⟨_, before, ft, source, st, data, hexec s, hresponse⟩

end Sys2Proof.Machine
end

section
/-! PROOFS. A row acts only on a request of its own (R171, R179, log 3): each management row takes a request from
the head of the input queue just when that request is the row's, and while the agent takes requests. -/

namespace Sys2Proof.Machine

/-! ## The requests a row selects (log 6) -/

/-- c is a row that takes requests from the input queue, and every request that it selects is a request of c. -/
def SelectsItsOwn (c : Instr) : Prop :=
  ∃ (selects : Request → Bool) (sizeOk : Nat → Bool) (run : Execution),
    (∀ s, exec c s = .next (takeRequest selects sizeOk run s)) ∧ ∀ r, selects r = true → rowOf r = c

/-- A row that selects by a command number selects its own, when that number's requests are the row's. -/
theorem selectsItsOwn_command {c : Instr} {n : Byte} {sizeOk : Nat → Bool} {run : Execution}
    (hexec : ∀ s, exec c s = .next (takeRequest (isCommand n) sizeOk run s))
    (hrow : ∀ r, r.command = n → rowOf r = c) : SelectsItsOwn c :=
  ⟨_, _, _, hexec, fun r hselects => hrow r (beq_iff_eq.1 hselects)⟩

/-- A SET_CONFIG request is of the row of its first item. -/
theorem rowOf_setConfig {r : Request} (h : isCommand 2 r = true) : rowOf r = writeRow r := by
  rw [rowOf, beq_iff_eq.1 h]
  rfl

/-- A COUNTERS request is of the row of its operation. -/
theorem rowOf_counters {r : Request} (h : isCommand 14 r = true) : rowOf r = counterRow r := by
  rw [rowOf, beq_iff_eq.1 h]
  rfl

/-- The row of an item selects its own, when sound SET_CONFIG requests of the item are the row's. -/
theorem selectsItsOwn_write {c : Instr} {items : List Nat} (hexec : ∀ s, exec c s = .next (takeWrite items s))
    (hrow : ∀ r, soundSetConfig r = true → firstItem r ∈ items → writeRow r = c) : SelectsItsOwn c := by
  refine ⟨_, _, _, hexec, fun r hselects => ?_⟩
  obtain ⟨hsound, hitem⟩ := Bool.and_eq_true_iff.1 hselects
  obtain ⟨hcommand, -⟩ := Bool.and_eq_true_iff.1 hsound
  rw [rowOf_setConfig hcommand, hrow r hsound (List.contains_iff_mem.1 hitem)]

/-- A row of one item selects its own. -/
theorem selectsItsOwn_writeOne {c : Instr} {item : Nat} (hexec : ∀ s, exec c s = .next (takeWrite [item] s))
    (hrow : ∀ r, soundSetConfig r = true → firstItem r = item → writeRow r = c) : SelectsItsOwn c :=
  selectsItsOwn_write hexec fun r hsound hitem => hrow r hsound (List.mem_singleton.1 hitem)

/-- A SET_CONFIG request that is unsound or whose first item has no row of its own is of WRITE_CONFIG_ITEM. -/
theorem writeRow_rest {r : Request} (h : (soundSetConfig r && itemsWithRow.contains (firstItem r)) = false) :
    writeRow r = .writeConfigItem := by
  unfold writeRow
  split
  case isFalse => rfl
  case isTrue hsound =>
    rw [hsound, Bool.true_and] at h
    split
    case h_19 => rfl
    all_goals
      rename_i hitem
      rw [hitem] at h
      exact absurd h (by decide)

/-- WRITE_CONFIG_ITEM selects its own. -/
theorem selectsItsOwn_writeConfigItem : SelectsItsOwn .writeConfigItem := by
  refine ⟨_, _, _, fun _ => rfl, fun r hselects => ?_⟩
  obtain ⟨hcommand, hrest⟩ := Bool.and_eq_true_iff.1 hselects
  rw [Bool.not_eq_true'] at hrest
  rw [rowOf_setConfig hcommand, writeRow_rest hrest]

/-- The row of an operation of COUNTERS selects its own. -/
theorem selectsItsOwn_operation {c : Instr} {op : Nat} {sizeOk : Nat → Bool} {run : Execution}
    (hexec : ∀ s, exec c s = .next (takeRequest (isOperation op) sizeOk run s))
    (hrow : ∀ r, r.args.length = 3 → r.arg 0 = op → counterRow r = c) : SelectsItsOwn c := by
  refine ⟨_, _, _, hexec, fun r hselects => ?_⟩
  obtain ⟨hsized, hop⟩ := Bool.and_eq_true_iff.1 hselects
  obtain ⟨hcommand, hsize⟩ := Bool.and_eq_true_iff.1 hsized
  rw [rowOf_counters hcommand, hrow r (beq_iff_eq.1 hsize) (beq_iff_eq.1 hop)]

/-- A COUNTERS request of a wrong size or with an operation code outside 1 to 5 is of READ. -/
theorem counterRow_rest {r : Request} (h : ¬ (r.args.length = 3 ∧ 1 ≤ r.arg 0 ∧ r.arg 0 ≤ 5)) :
    counterRow r = .read := by
  unfold counterRow
  split
  case isFalse => rfl
  case isTrue hsize =>
    split
    case h_6 => rfl
    all_goals exact absurd ⟨hsize, by omega⟩ h

/-- READ selects its own. -/
theorem selectsItsOwn_read : SelectsItsOwn .read := by
  refine ⟨_, _, _, fun _ => rfl, fun r hselects => ?_⟩
  obtain ⟨hcommand, hrest⟩ := Bool.and_eq_true_iff.1 hselects
  rw [Bool.not_eq_true', ← Bool.not_eq_true] at hrest
  rw [rowOf_counters hcommand, counterRow_rest (by simpa [sizeIs, Request.arg] using hrest)]

/-- A request of a command number outside 1 to 16 is of BAD_COMMAND. -/
theorem rowOf_badCommand {r : Request} (h : r.command = 0 ∨ 16 < r.command.toNat) : rowOf r = .badCommand := by
  have houtside : r.command.toNat = 0 ∨ 16 < r.command.toNat := h.imp_left (congrArg BitVec.toNat)
  unfold rowOf
  split
  case h_17 => rfl
  all_goals omega

/-- BAD_COMMAND selects its own. -/
theorem selectsItsOwn_badCommand : SelectsItsOwn .badCommand := by
  refine ⟨_, _, _, fun _ => rfl, fun r hselects => rowOf_badCommand ?_⟩
  rwa [Bool.or_eq_true, beq_iff_eq, decide_eq_true_eq] at hselects

/-- Every management row selects its own requests alone. -/
theorem selectsItsOwn_of_mem {c : Instr} (hc : c ∈ managementRows) : SelectsItsOwn c := by
  cases c
  case identify | getConfig | setGeometry | setHeadState | tableOpen | tableData | tableRead | selectDie
      | deactivate | flush | readCells | readPieces | clearAlarms | reset =>
    exact selectsItsOwn_command (fun _ => rfl) fun r hcommand => by rw [rowOf, hcommand]; rfl
  case readClear | clearScope | clearAll | freeze | unfreeze =>
    exact selectsItsOwn_operation (fun _ => rfl) fun r hsize hop => by rw [counterRow, if_pos hsize, hop]; rfl
  case writePortRole | writeForwardMode | writeDecimationFactor | writeReserve | writeMirrorSource
      | writeStationAddress | writeRecorderAddress | writeFrameTypeValue | writeReverseLimit | writeTriggerMode
      | writePitch | writeTmin | writeTp | writeSchedulingMode | writeBindingMode | writeFixedAddress =>
    exact selectsItsOwn_writeOne (fun _ => rfl) fun r hsound hitem => by rw [writeRow, if_pos hsound, hitem]; rfl
  case writeWaterMark =>
    refine selectsItsOwn_write (fun _ => rfl) fun r hsound hitem => ?_
    rw [List.mem_cons, List.mem_singleton] at hitem
    obtain hhigh | hlow := hitem
    · rw [writeRow, if_pos hsound, hhigh]
      rfl
    · rw [writeRow, if_pos hsound, hlow]
      rfl
  case read => exact selectsItsOwn_read
  case writeConfigItem => exact selectsItsOwn_writeConfigItem
  case badCommand => exact selectsItsOwn_badCommand
  all_goals simp [managementRows] at hc

/-! ## When the agent takes requests (R171, R179) -/

/-- The agent takes none during a reset, while a RESET waits or the soft reset is due, or with queue A full. -/
theorem mayTake_barred {s : State} (h : s.inReset = true ∨ s.mga.reset ≠ .none ∨ 16 ≤ queueALoad s) :
    mayTake s = false := by
  obtain hreset | hwaits | hfull := h
  · simp [mayTake, hreset]
  · simp [mayTake, hwaits]
  · simp [mayTake, Config.queueA, Nat.not_lt.2 hfull]

/-- Settles O34: a row selects its own requests alone, and selects none while the agent takes none. -/
theorem requestsAreTakenByTheirOwnRowAlone : Obligations.RequestsAreTakenByTheirOwnRowAlone := by
  intro s c hc
  obtain ⟨selects, sizeOk, run, hexec, hown⟩ := selectsItsOwn_of_mem hc
  rw [hexec s]
  refine ⟨fun r rest hhead hother => ?_, fun hempty => ?_, fun hbarred => ?_⟩
  · have hselects : selects r = false := eq_false_of_ne_true fun h => hother (hown r h).symm
    rw [takeRequest_other hhead hselects]
  · rw [takeRequest_nil hempty]
  · rw [takeRequest_barred (mayTake_barred hbarred)]

end Sys2Proof.Machine
end

section
/-! PROOFS. IDENTIFY, CLEAR_ALARMS and RESET (R178, R179): what each answers of the state in which it is executed,
and the state that it leaves. -/

namespace Sys2Proof.Machine

/-- A binding mode's code is its place in the list of chapter 11. -/
theorem codeByte_binding (m : BindingMode) :
    codeByte bindingList m = beNat 1 (match m with | .openMode => 0 | .first => 1 | .fixed => 2) := by
  cases m <;> rfl

/-- A service state's code is its place in the list of 5.4. -/
theorem codeByte_service (x : Service) :
    codeByte serviceList x = beNat 1 (match x with | .unconfigured => 0 | .idle => 1 | .inspecting => 2) := by
  cases x <;> rfl

/-- The bound address or none: its presence byte, and six bytes when there is one. -/
theorem optional_addrBytes (a : Option Address) :
    optional addrBytes a = match a with | none => beNat 1 0 | some a => beNat 1 1 ++ beNat 6 a.toNat := by
  cases a <;> rfl

/-- Settles O37: the three executions answer from the state in which they begin, in every service state. -/
theorem identifyClearAlarmsAndResetAnswer : Obligations.IdentifyClearAlarmsAndResetAnswer := by
  refine ⟨fun s r rest h => ⟨fun hasks => ?_, fun hasks => ?_⟩, fun s r rest h hasks => ?_⟩
  · rw [show exec .identify s = _ from congrArg Host.Outcome.next (takeRequest_asked h hasks identify)]
    simp only [identify, bindingReading, codeByte_binding, codeByte_service, optional_addrBytes,
      ← List.append_assoc]
    rfl
  · exact congrArg Host.Outcome.next (takeRequest_asked h hasks clearAlarms)
  · exact congrArg Host.Outcome.next (takeRequest_asked h hasks resetCommand)

end Sys2Proof.Machine
end

section
/-! PROOFS. The COUNTERS requests (12.4, R183, R184): what scope and index name and what clearing it sets to 0, the
checks of each operation in their order, and the row that answers it. -/

namespace Sys2Proof.Machine

/-! ## The members of a scope (12.1, R184) -/

/-- In a scope of n members an index below n names the member of its number, and an index from n on names none. -/
theorem instanceOf_indexed {scope n : Nat} {named : Fin n → CounterInstance}
    (hscope : ∀ index, instanceOf scope index = (toFin n index).map named) (index : Nat) :
    (∀ i : Fin n, index = i.val → instanceOf scope index = some (named i)) ∧
      (n ≤ index → instanceOf scope index = none) := by
  refine ⟨fun i hi => ?_, fun hbeyond => ?_⟩
  · rw [hscope, hi, toFin_val, Option.map_some]
  · rw [hscope, toFin_none hbeyond, Option.map_none]

/-- The global scope has the index 0 alone. -/
theorem instanceOf_global (index : Nat) :
    (index = 0 → instanceOf 3 index = some .global) ∧ (0 < index → instanceOf 3 index = none) :=
  ⟨fun h => if_pos h, fun h => if_neg (Nat.ne_of_gt h)⟩

/-! ## Readings (R184, log 20) -/

/-- The freeze flag is one byte, FROZEN 0 and RUNNING 1. -/
theorem freezeByte_eq (c : Counters) : freezeByte c = [if c.frozen then 0 else 1] := by
  rw [freezeByte]
  cases c.frozen <;> rfl

/-- While RUNNING the freeze flag's byte is 1. -/
theorem freezeByte_running {c : Counters} (h : c.frozen = false) : freezeByte c = [1] := by
  rw [freezeByte_eq, h]
  rfl

/-- The data of a READ: the freeze flag, then the counters in their order, 4 bytes each. -/
theorem readingOf_eq (i : CounterInstance) (c : Counters) :
    readingOf i c = (if c.frozen then 0 else 1) :: ((i.values c).map fun v => beNat 4 v.toNat).flatten := by
  rw [readingOf, freezeByte_eq]
  rfl

/-! ## The checks, in order (R184) -/

/-- The scopes are those up to 3. -/
theorem scopeKnown_iff (r : Request) : scopeKnown (scopeArg r) = true ↔ r.arg 1 ≤ 3 := decide_eq_true_iff

/-- A scope above 3. -/
theorem onInstance_unknown {r : Request} (h : 3 < r.arg 1) (s : State) (f : CounterInstance → Reply × State) :
    onInstance r s f = refuse .badValue s :=
  if_neg fun hknown => Nat.not_le.2 h ((scopeKnown_iff r).1 hknown)

/-- A known scope leaves the judgement to its index. -/
theorem onInstance_known {r : Request} (h : r.arg 1 ≤ 3) (s : State) (f : CounterInstance → Reply × State) :
    onInstance r s f = (instanceOf (r.arg 1) (r.arg 2)).elim (refuse .range s) f := by
  rw [onInstance, if_pos ((scopeKnown_iff r).2 h)]
  change (match instanceOf (r.arg 1) (r.arg 2) with | some i => f i | none => refuse .range s) = _
  cases instanceOf (r.arg 1) (r.arg 2) <;> rfl

/-- An index beyond its scope. -/
theorem onInstance_outside {r : Request} (h : r.arg 1 ≤ 3) (hi : instanceOf (r.arg 1) (r.arg 2) = none) (s : State)
    (f : CounterInstance → Reply × State) : onInstance r s f = refuse .range s := by
  rw [onInstance_known h, hi]
  rfl

/-- A scope and an index that name a member. -/
theorem onInstance_inside {r : Request} {i : CounterInstance} (h : r.arg 1 ≤ 3)
    (hi : instanceOf (r.arg 1) (r.arg 2) = some i) (s : State) (f : CounterInstance → Reply × State) :
    onInstance r s f = f i := by
  rw [onInstance_known h, hi]
  rfl

/-- READ of the operation code 0 is judged by its scope and index. -/
theorem readCounters_zero {r : Request} (h : r.arg 0 = 0) (s : State) :
    readCounters r s = onInstance r s fun i => answer (readingOf i s.ctb) s := if_pos h

/-- READ of another operation code. -/
theorem readCounters_other {r : Request} (h : r.arg 0 ≠ 0) (s : State) : readCounters r s = refuse .badValue s :=
  if_neg h

/-- READ_CLEAR of a named member while FROZEN. -/
theorem readClear_frozen {r : Request} {i : CounterInstance} (h : r.arg 1 ≤ 3)
    (hi : instanceOf (r.arg 1) (r.arg 2) = some i) {s : State} (hfrozen : s.ctb.frozen = true) :
    readClear r s = refuse .state s := (onInstance_inside h hi s _).trans (if_pos hfrozen)

/-- READ_CLEAR of a named member while RUNNING answers the counters as they were. -/
theorem readClear_running {r : Request} {i : CounterInstance} (h : r.arg 1 ≤ 3)
    (hi : instanceOf (r.arg 1) (r.arg 2) = some i) {s : State} (hrunning : s.ctb.frozen = false) :
    readClear r s = answer (readingOf i s.ctb) (setCounters (s.ctb.clearInstance i) s) :=
  (onInstance_inside h hi s _).trans (if_neg (ne_true_of_eq_false hrunning))

/-- CLEAR_SCOPE of a scope above 3. -/
theorem clearScope_unknown {r : Request} (h : 3 < r.arg 1) (s : State) : clearScope r s = refuse .badValue s :=
  if_neg fun hknown => Nat.not_le.2 h ((scopeKnown_iff r).1 hknown)

/-- CLEAR_SCOPE of a known scope while FROZEN. -/
theorem clearScope_frozen {r : Request} (h : r.arg 1 ≤ 3) {s : State} (hfrozen : s.ctb.frozen = true) :
    clearScope r s = refuse .state s := (if_pos ((scopeKnown_iff r).2 h)).trans (if_pos hfrozen)

/-- CLEAR_SCOPE of a known scope while RUNNING. -/
theorem clearScope_running {r : Request} {scope : Nat} (h : r.arg 1 = scope) (hscope : scope ≤ 3) {s : State}
    (hrunning : s.ctb.frozen = false) :
    clearScope r s = answer [1] (setCounters (s.ctb.clearScope scope) s) := by
  subst h
  rw [← freezeByte_running hrunning]
  exact (if_pos ((scopeKnown_iff r).2 hscope)).trans (if_neg (ne_true_of_eq_false hrunning))

/-- CLEAR_ALL while FROZEN. -/
theorem clearAll_frozen (r : Request) {s : State} (hfrozen : s.ctb.frozen = true) :
    clearAll r s = refuse .state s := if_pos hfrozen

/-- CLEAR_ALL while RUNNING. -/
theorem clearAll_running (r : Request) {s : State} (hrunning : s.ctb.frozen = false) :
    clearAll r s = answer [1] (setCounters s.ctb.clearAll s) := by
  rw [← freezeByte_running hrunning]
  exact if_neg (ne_true_of_eq_false hrunning)

/-- FREEZE and UNFREEZE answer the freeze flag that they set. -/
theorem setFreeze_eq (b : Bool) (r : Request) (s : State) :
    setFreeze b r s = answer [if b then 0 else 1] (setCounters { s.ctb with frozen := b } s) := by
  rw [setFreeze, freezeByte_eq]

/-! ## The rows (R172, log 6) -/

/-- A row answers a request of its own, of the three bytes of COUNTERS, with what its execution gives. -/
theorem takeRequest_counters {s : State} {r : Request} {rest : List Request} (h : Ready s r rest)
    {selects : Request → Bool} (hselects : selects r = true) (hsize : r.args.length = 3) {run : Execution}
    {st : Status} {data : List Byte} {t : State}
    (hrun : run r (begun s r rest) = ({ status := st, data := data }, t)) :
    takeRequest selects (sizeIs 3) run s = answered r st data t := by
  have hsound : sizeIs 3 r.args.length = true := beq_iff_eq.2 hsize
  rw [takeRequest_ready h hselects, if_pos hsound, hrun]

/-- READ answers the requests of the operation code 0 and of the codes above 5. -/
theorem exec_read_ready {s : State} {r : Request} {rest : List Request} (h : Ready s r rest) (hasks : Asks r 14 3)
    (hop : r.arg 0 = 0 ∨ 5 < r.arg 0) {st : Status} {data : List Byte} {t : State}
    (hrun : readCounters r (begun s r rest) = ({ status := st, data := data }, t)) :
    exec .read s = .next (answered r st data t) := by
  obtain ⟨hcommand, hsize⟩ := hasks
  refine congrArg Host.Outcome.next (takeRequest_counters h ?_ hsize hrun)
  have hcode : natAt r.args 0 1 = 0 ∨ 5 < natAt r.args 0 1 := hop
  simpa [isCommand, hcommand, sizeIs, hsize] using hcode

/-- A row of one operation code answers the requests of that code. -/
theorem exec_operation_ready {c : Instr} {op : Nat} {run : Execution} {s : State} {r : Request}
    {rest : List Request} (hexec : ∀ s, exec c s = .next (takeRequest (isOperation op) (sizeIs 3) run s))
    (h : Ready s r rest) (hasks : Asks r 14 3) (hop : r.arg 0 = op) {st : Status} {data : List Byte} {t : State}
    (hrun : run r (begun s r rest) = ({ status := st, data := data }, t)) :
    exec c s = .next (answered r st data t) := by
  obtain ⟨hcommand, hsize⟩ := hasks
  rw [hexec, takeRequest_counters h (isOperation_of_arg (beq_iff_eq.2 hcommand) hsize hop) hsize hrun]

/-- Settles O49: each operation by its row and its checks in their order; what an index names, scope by scope. -/
theorem counterRequestsReadClearAndFreeze : Obligations.CounterRequestsReadClearAndFreeze := by
  refine ⟨fun s r rest op h hasks hop => ?_, fun s r rest h hasks => ?_, fun index => ?_, fun c => ?_⟩
  · subst hop
    intro u scope index shown
    have hshown (i : CounterInstance) : readingOf i u.ctb = shown i := readingOf_eq i u.ctb
    refine ⟨fun hop => ?_, fun hop => ?_, fun hop => ?_⟩
    · have read {st data t} := exec_read_ready (st := st) (data := data) (t := t) h hasks (.inl hop)
      rw [readCounters_zero hop] at read
      refine ⟨fun hscope => read (onInstance_unknown hscope u _),
        fun hscope hnone => read (onInstance_outside hscope hnone u _), fun i hscope hi => read ?_⟩
      rw [onInstance_inside hscope hi, ← hshown]
      rfl
    · exact exec_read_ready h hasks (.inr hop) (readCounters_other (by omega) u)
    · have clear {st data t} :=
        exec_operation_ready (c := .readClear) (st := st) (data := data) (t := t) (fun _ => rfl) h hasks hop
      refine ⟨fun hscope => clear (onInstance_unknown hscope u _),
        fun hscope hnone => clear (onInstance_outside hscope hnone u _), fun i hscope hi =>
        ⟨fun hfrozen => clear (readClear_frozen hscope hi hfrozen), fun hrunning => clear ?_⟩⟩
      rw [readClear_running hscope hi hrunning, ← hshown]
      rfl
  · intro u zeros
    refine ⟨fun hop => ?_, fun hop => ?_, fun hop => ?_, fun hop => ?_⟩
    · have clear {st data t} :=
        exec_operation_ready (c := .clearScope) (st := st) (data := data) (t := t) (fun _ => rfl) h hasks hop
      exact ⟨fun hscope => clear (clearScope_unknown hscope u),
        fun hscope hfrozen => clear (clearScope_frozen hscope hfrozen), fun hrunning =>
        ⟨fun hports => clear (clearScope_running hports (by decide) hrunning),
        fun hheads => clear (clearScope_running hheads (by decide) hrunning),
        fun hstrands => clear (clearScope_running hstrands (by decide) hrunning),
        fun hglobal => clear (clearScope_running hglobal (by decide) hrunning)⟩⟩
    · have clear {st data t} :=
        exec_operation_ready (c := .clearAll) (st := st) (data := data) (t := t) (fun _ => rfl) h hasks hop
      exact ⟨fun hfrozen => clear (clearAll_frozen r hfrozen), fun hrunning => clear (clearAll_running r hrunning)⟩
    · exact exec_operation_ready (fun _ => rfl) h hasks hop (setFreeze_eq true r u)
    · exact exec_operation_ready (fun _ => rfl) h hasks hop (setFreeze_eq false r u)
  · obtain ⟨hport, hnoPort⟩ := instanceOf_indexed (scope := 0) (named := .port) (fun _ => rfl) index
    obtain ⟨hhead, hnoHead⟩ := instanceOf_indexed (scope := 1) (named := .head) (fun _ => rfl) index
    obtain ⟨hstrand, hnoStrand⟩ := instanceOf_indexed (scope := 2) (named := .strand) (fun _ => rfl) index
    exact ⟨hport, hnoPort, hhead, hnoHead, hstrand, hnoStrand, instanceOf_global index⟩
  · exact ⟨fun _ => ⟨rfl, rfl⟩, fun _ => ⟨rfl, rfl⟩, fun _ => ⟨rfl, rfl⟩, rfl, rfl⟩

end Sys2Proof.Machine
end

section
/-! PROOFS. The step on a queue of commands, and the completion of every command (1.3, 3.1): what a command of a
port, slot or strand answers when the part has it and when it does not, and that the other commands answer. -/

namespace Sys2Proof.Machine

/-- Settles O1: a step looks at the front of the queue. -/
theorem stepRunsTheFrontCommand : Obligations.StepRunsTheFrontCommand := by
  intro c rest s hfront
  rw [step, hfront]

/-- c completes on s: it answers a next state when well-formed, and ends in the fault noSuchInstance when not. -/
def Completes (c : Instr) (s : State) : Prop :=
  (c.wellFormed = true → ∃ t, exec c s = .next t) ∧ (c.wellFormed = false → exec c s = .fault .noSuchInstance)

/-- A command that names a port, slot or strand which the part does not have. -/
theorem withIndex_beyond {n i : Nat} (h : n ≤ i) (s : State) (f : Fin n → State → State) :
    withIndex i s f = .fault .noSuchInstance := dif_neg (Nat.not_lt.2 h)

/-- A command on the i-th of n completes: it is well-formed just when the part has an i-th. -/
theorem completes_withIndex {c : Instr} {s : State} {n i : Nat} {f : Fin n → State → State}
    (hexec : exec c s = withIndex i s f) (hform : c.wellFormed = decide (i < n)) : Completes c s := by
  unfold Completes
  rw [hexec, hform, decide_eq_true_eq, decide_eq_false_iff_not, Nat.not_lt]
  exact ⟨fun hi => ⟨_, withIndex_val ⟨i, hi⟩ s f⟩, fun hi => withIndex_beyond hi s f⟩

/-- A command that is always well-formed and answers a next state completes. -/
theorem completes_next {c : Instr} {s t : State} (hexec : exec c s = .next t) (hform : c.wellFormed = true) :
    Completes c s := ⟨fun _ => ⟨t, hexec⟩, fun hill => absurd hform (ne_true_of_eq_false hill)⟩

/-- Settles O3: eight commands name a port, slot or strand; each of the others answers the state after its effect. -/
theorem everyWellFormedCommandCompletes : Obligations.EveryWellFormedCommandCompletes := by
  intro c s
  change Completes c s
  cases c
  case headFrameReceive | noticeSendStart | noticeSendEnd | pulseStart | pulseRelease | slotDeadlineExpiry
      | tempExpiry | gateRelease => exact completes_withIndex rfl rfl
  all_goals exact completes_next rfl rfl

end Sys2Proof.Machine
end
